-- ==== Sys2Proof/Word.lean ====
section
/-! DEFINITION. The words of the PA engine: 64-bit register values (R6), 32-bit transaction descriptors (R61), bus bytes (R43). -/

namespace Sys2Proof

/-- A register, engine or transaction-data value: "All fields are plain 64-bit unsigned values" (R6). -/
abbrev Word := BitVec 64

/-- One byte lane of the bus (R43). -/
abbrev Byte := BitVec 8

/-- A transaction descriptor (R61). -/
abbrev Desc := BitVec 32

end Sys2Proof
end

