-- ==== Sys2Proof/Syntax.lean ====
section
/-! DEFINITION. The decoded transactions (opcode_table.json, R101 to R112), what the bus presents to the device (R40), and the lines of the spec's assembler notation (R68, R69). -/

namespace Sys2Proof

/-- The direction of a transaction, `R` or `W` (R40). -/
inductive Dir where
  | read
  | write
  deriving DecidableEq, Repr

/-- The two access widths the device accepts (R11, R41). -/
inductive Width where
  | w4
  | w8
  deriving DecidableEq, Repr

/-- The five registers of the register map (R10, R29). -/
inductive RegName where
  | keyLo
  | keyHi
  | plaintext
  | tweak
  | result
  deriving DecidableEq, Repr

/-- A transaction as a master presents it (R40): any offset and any access size in bytes, so that the forms the
bus rejects (R42, R67) can be written down too. `wdata` means something for a write only. -/
structure Transaction where
  dir : Dir
  offset : Nat
  width : Nat
  wdata : Word
  deriving DecidableEq, Repr

/-- What arrives at the device from outside: a transaction the bus delivers (R49), the construction event (device
attach, or any reset that reaches the device: R160), and the teardown of the instance (R161). -/
inductive BusEvent where
  | access (t : Transaction)
  | construct
  | destroy
  deriving DecidableEq, Repr

/-- The twelve decoded transactions: one constructor per row of opcode_table.json. A write carries its write data
(R107 to R112 list it as an operand); the UNMAPPED rows carry their 30-bit `OFF` field (R61). -/
inductive Instr where
  | rdKeyLo (w : Width)
  | rdKeyHi (w : Width)
  | rdPlaintext (w : Width)
  | rdTweak (w : Width)
  | rdResult (w : Width)
  | rdUnmapped (w : Width) (off : BitVec 30)
  | wrKeyLo (w : Width) (wdata : Word)
  | wrKeyHi (w : Width) (wdata : Word)
  | wrPlaintext (w : Width) (wdata : Word)
  | wrTweak (w : Width) (wdata : Word)
  | wrResult (w : Width) (wdata : Word)
  | wrUnmapped (w : Width) (off : BitVec 30) (wdata : Word)
  deriving DecidableEq, Repr

/-- The target of a line of the spec's notation: a register name, or an offset literal (R68). -/
inductive AsmTarget where
  | reg (r : RegName)
  | literal (offset : Nat)
  deriving DecidableEq, Repr

/-- A line of the spec's notation: `rd.<w> target` or `wr.<w> target, value` (R68). -/
inductive AsmLine where
  | rd (w : Width) (target : AsmTarget)
  | wr (w : Width) (target : AsmTarget) (value : Word)
  deriving DecidableEq, Repr

/-- The pseudo-operations of R69. -/
inductive PseudoOp where
  | setkey (klo khi : Word)
  | settweak (t : Word)
  | sign (p : Word)
  | auth (sp : Word)
  | drain
  deriving DecidableEq, Repr

end Sys2Proof
end

