-- ==== Sys2Proof/Config.lean ====
section
/-! DEFINITION. The OPEN parameters of the PA engine: constants without a body, so that no proof can see their values. -/

namespace Sys2Proof

/-- The type of a cipher primitive: plaintext, tweak, key_lo, key_hi, rounds (R14). The engines are written over any
cipher, so that the spec's laws and its test stubs can be stated of them (R80). -/
abbrev Cipher := Word → Word → Word → Word → BitVec 32 → Word

namespace Config

/-- ENCRYPT (R14, R80, D8): the device's cipher, of which nothing is known but that it is a function of its five
arguments. -/
opaque encrypt : Word → Word → Word → Word → BitVec 32 → Word

/-- DIAG(offset, width) (R13, D7): the diagnostic value of a read at an unmapped offset, a function of the offset and
the width only. -/
opaque diag : Nat → Width → Word

/-- BASE (R16): the bus address of offset 0, the platform's choice. -/
opaque base : Nat

/-- Which of the sizes R12 allows WINDOW_SIZE is: how many 8-byte words the window has beyond the registers
(D6). `windowSize` below Machine/ turns it into the size. -/
opaque windowSlack : Fin 134217212

/-- Which of the splits R12 allows PUBLIC_SIZE makes (D6). `publicSize` below Machine/ turns it into the size. -/
opaque privateSlack : Nat

end Config

end Sys2Proof
end

