-- ==== Sys2Proof/Machine/Window.lean ====
section
/-! DEFINITION. The device window: the document's literals, the window's size and split, admission, and the offset decoder of the Bus Adapter. -/

namespace Sys2Proof

/-- `SIG_MASK = 0x7FFF << 48` (R7). -/
def sigMask : Word := 0x7FFF000000000000#64

/-- `CANON_MASK = 0xFFFF << 48` (R8). -/
def canonMask : Word := 0xFFFF000000000000#64

/-- `ROUNDS = 7` (R9). -/
def rounds : BitVec 32 := 7#32

/-- `KEY_LO_INIT` (R15). -/
def keyLoInit : Word := 0xABC#64

/-- `KEY_HI_INIT` (R15). -/
def keyHiInit : Word := 0xDEF#64

/-- The byte offset of a register (R10). -/
def RegName.offset : RegName → Nat
  | .keyLo => 0x0
  | .keyHi => 0x8
  | .plaintext => 0x1010
  | .tweak => 0x1018
  | .result => 0x1020

/-- An access width in bytes (R11). -/
def Width.bytes : Width → Nat
  | .w4 => 4
  | .w8 => 8

/-- The access width of that many bytes; 4 and 8 are the only ones (R41). -/
def widthOfBytes (n : Nat) : Option Width :=
  if n = 4 then some .w4 else if n = 8 then some .w8 else none

/-- The least window R12 allows: every register is reachable in it. -/
def minWindow : Nat := 0x1028

/-- `WINDOW_SIZE` (R12): any multiple of 8 from 0x1028 to 2^30, the slack says which. -/
def windowSize : Nat := minWindow + 8 * Config.windowSlack.val

/-- The size of the private trailing sub-window, `WINDOW_SIZE - PUBLIC_SIZE`: at least 1, and less than the public
part (R12). -/
def privateSize : Nat := 1 + Config.privateSlack % ((windowSize - 1) / 2)

/-- `PUBLIC_SIZE` (R12). It has no effect on any transaction (R34). -/
def publicSize : Nat := windowSize - privateSize

/-- `e <= WINDOW_SIZE`. The least window is asked first, so that an access at a register is decided without knowing
the window's size; `fitsWindow_iff` (Laws/Window.lean) says that this is the plain comparison. -/
def fitsWindow (e : Nat) : Bool := decide (e ≤ minWindow) || decide (e ≤ windowSize)

/-- `Admitted(offset, width)` (R42): width 4 or 8, aligned to the width, inside the window. -/
def admitted (offset width : Nat) : Bool :=
  (width == 4 || width == 8) && offset % width == 0 && fitsWindow (offset + width)

/-- `DecodeOffset` (R63): every bit of the offset is compared; `none` is UNMAPPED. -/
def decodeOffset (off : Nat) : Option RegName :=
  if off = 0x0000 then some .keyLo
  else if off = 0x0008 then some .keyHi
  else if off = 0x1010 then some .plaintext
  else if off = 0x1018 then some .tweak
  else if off = 0x1020 then some .result
  else none

/-- Admission of a transaction (R42). -/
def Transaction.admitted (t : Transaction) : Bool := Sys2Proof.admitted t.offset t.width

end Sys2Proof
end

