-- ==== Sys2Proof/WellFormed.lean ====
section
/-! DEFINITION. Which terms of Instr are transactions that exist: the UNMAPPED rows only at offsets that are unmapped and admitted (R64, R65, R106, R112). -/

namespace Sys2Proof

/-- An offset field fits an UNMAPPED row: no register lives there (R63), and the access is admitted (R42). -/
def unmappedOk (w : Width) (off : BitVec 30) : Bool :=
  (decodeOffset off.toNat).isNone && admitted off.toNat w.bytes

/-- A well-formed instruction. A register's rows are admitted at either width (R41), whatever the write data (R60). -/
def Instr.wf : Instr → Bool
  | .rdKeyLo _ => true
  | .rdKeyHi _ => true
  | .rdPlaintext _ => true
  | .rdTweak _ => true
  | .rdResult _ => true
  | .rdUnmapped w off => unmappedOk w off
  | .wrKeyLo _ _ => true
  | .wrKeyHi _ _ => true
  | .wrPlaintext _ _ => true
  | .wrTweak _ _ => true
  | .wrResult _ _ => true
  | .wrUnmapped w off _ => unmappedOk w off

end Sys2Proof
end

