-- ==== Sys2Proof/Decode.lean ====
section
/-! DEFINITION. Descriptors: their fields, the full decode, the encoder, the opcode map as rows of match and mask, and the packing of a transaction (R60 to R65). -/

namespace Sys2Proof

/-- Why a transaction is no instruction: the bus rejects it before the device (R42, R64). -/
inductive DecodeError where
  | busReject (offset width : Nat)
  deriving DecidableEq, Repr

/-- `WE`, bit 31: 1 is a write (R61). -/
def descDir (d : Desc) : Dir := if d.getLsbD 31 then .write else .read

/-- `width(desc)`, from `SZ`, bit 30: 1 is an 8-byte access (R61). -/
def descWidth (d : Desc) : Width := if d.getLsbD 30 then .w8 else .w4

/-- `OFF`, bits 29..0 (R61). -/
def descOff (d : Desc) : BitVec 30 := d.extractLsb' 0 30

/-- The read row of a decoded offset (R64). -/
def readInstr (r : Option RegName) (w : Width) (off : BitVec 30) : Instr :=
  match r with
  | some .keyLo => .rdKeyLo w
  | some .keyHi => .rdKeyHi w
  | some .plaintext => .rdPlaintext w
  | some .tweak => .rdTweak w
  | some .result => .rdResult w
  | none => .rdUnmapped w off

/-- The write row of a decoded offset (R64). -/
def writeInstr (r : Option RegName) (w : Width) (off : BitVec 30) (wdata : Word) : Instr :=
  match r with
  | some .keyLo => .wrKeyLo w wdata
  | some .keyHi => .wrKeyHi w wdata
  | some .plaintext => .wrPlaintext w wdata
  | some .tweak => .wrTweak w wdata
  | some .result => .wrResult w wdata
  | none => .wrUnmapped w off wdata

/-- `Decode(desc)` (R64), with the write data that travels beside the descriptor: admission first, then the direction
and the decoded offset. A read takes nothing from the write data. -/
def decode (d : Desc) (wdata : Word) : Except DecodeError Instr :=
  if admitted (descOff d).toNat (descWidth d).bytes then
    match descDir d with
    | .read => .ok (readInstr (decodeOffset (descOff d).toNat) (descWidth d) (descOff d))
    | .write => .ok (writeInstr (decodeOffset (descOff d).toNat) (descWidth d) (descOff d) wdata)
  else .error (.busReject (descOff d).toNat (descWidth d).bytes)

/-- The `WE` bit of a direction (R61). -/
def Dir.bit : Dir → BitVec 1
  | .read => 0#1
  | .write => 1#1

/-- The `SZ` bit of a width (R61). -/
def Width.bit : Width → BitVec 1
  | .w4 => 0#1
  | .w8 => 1#1

/-- `WE << 31 | SZ << 30 | OFF` (R61). -/
def packDesc (dir : Dir) (w : Width) (off : BitVec 30) : Desc := (dir.bit ++ w.bit) ++ off

/-- The descriptor of an instruction (R61, R65). -/
def encode : Instr → Desc
  | .rdKeyLo w => packDesc .read w 0x0000#30
  | .rdKeyHi w => packDesc .read w 0x0008#30
  | .rdPlaintext w => packDesc .read w 0x1010#30
  | .rdTweak w => packDesc .read w 0x1018#30
  | .rdResult w => packDesc .read w 0x1020#30
  | .rdUnmapped w off => packDesc .read w off
  | .wrKeyLo w _ => packDesc .write w 0x0000#30
  | .wrKeyHi w _ => packDesc .write w 0x0008#30
  | .wrPlaintext w _ => packDesc .write w 0x1010#30
  | .wrTweak w _ => packDesc .write w 0x1018#30
  | .wrResult w _ => packDesc .write w 0x1020#30
  | .wrUnmapped w off _ => packDesc .write w off

/-- The write data an instruction carries beside its descriptor; a read carries none, written as 0 (R60). -/
def Instr.wdata : Instr → Word
  | .rdKeyLo _ => 0
  | .rdKeyHi _ => 0
  | .rdPlaintext _ => 0
  | .rdTweak _ => 0
  | .rdResult _ => 0
  | .rdUnmapped _ _ => 0
  | .wrKeyLo _ v => v
  | .wrKeyHi _ v => v
  | .wrPlaintext _ v => v
  | .wrTweak _ v => v
  | .wrResult _ v => v
  | .wrUnmapped _ _ v => v

/-- The direction of an instruction (R64). -/
def Instr.dir : Instr → Dir
  | .rdKeyLo _ => .read
  | .rdKeyHi _ => .read
  | .rdPlaintext _ => .read
  | .rdTweak _ => .read
  | .rdResult _ => .read
  | .rdUnmapped _ _ => .read
  | .wrKeyLo _ _ => .write
  | .wrKeyHi _ _ => .write
  | .wrPlaintext _ _ => .write
  | .wrTweak _ _ => .write
  | .wrResult _ _ => .write
  | .wrUnmapped _ _ _ => .write

/-- The access width of an instruction (R64). -/
def Instr.width : Instr → Width
  | .rdKeyLo w => w
  | .rdKeyHi w => w
  | .rdPlaintext w => w
  | .rdTweak w => w
  | .rdResult w => w
  | .rdUnmapped w _ => w
  | .wrKeyLo w _ => w
  | .wrKeyHi w _ => w
  | .wrPlaintext w _ => w
  | .wrTweak w _ => w
  | .wrResult w _ => w
  | .wrUnmapped w _ _ => w

/-- The byte offset an instruction accesses (R64, R115). -/
def Instr.offset : Instr → Nat
  | .rdKeyLo _ => RegName.keyLo.offset
  | .rdKeyHi _ => RegName.keyHi.offset
  | .rdPlaintext _ => RegName.plaintext.offset
  | .rdTweak _ => RegName.tweak.offset
  | .rdResult _ => RegName.result.offset
  | .rdUnmapped _ off => off.toNat
  | .wrKeyLo _ _ => RegName.keyLo.offset
  | .wrKeyHi _ _ => RegName.keyHi.offset
  | .wrPlaintext _ _ => RegName.plaintext.offset
  | .wrTweak _ _ => RegName.tweak.offset
  | .wrResult _ _ => RegName.result.offset
  | .wrUnmapped _ off _ => off.toNat

/-- The mnemonic of an instruction, as opcode_table.json spells it. -/
def Instr.mnemonic : Instr → String
  | .rdKeyLo _ => "RD.KEY_LO"
  | .rdKeyHi _ => "RD.KEY_HI"
  | .rdPlaintext _ => "RD.PLAINTEXT"
  | .rdTweak _ => "RD.TWEAK"
  | .rdResult _ => "RD.RESULT"
  | .rdUnmapped _ _ => "RD.UNMAPPED"
  | .wrKeyLo _ _ => "WR.KEY_LO"
  | .wrKeyHi _ _ => "WR.KEY_HI"
  | .wrPlaintext _ _ => "WR.PLAINTEXT"
  | .wrTweak _ _ => "WR.TWEAK"
  | .wrResult _ _ => "WR.RESULT"
  | .wrUnmapped _ _ _ => "WR.UNMAPPED"

/-- One row of the opcode map: a descriptor matches it where it agrees with `pattern` under `mask` (R65). -/
structure OpcodeRow where
  mnemonic : String
  pattern : Desc
  mask : Desc
  deriving DecidableEq, Repr

/-- The opcode map (R65), the mapped rows of a direction before its UNMAPPED row. -/
def opcodeMap : List OpcodeRow :=
  [ ⟨"RD.KEY_LO", 0x00000000#32, 0xBFFFFFFF#32⟩,
    ⟨"RD.KEY_HI", 0x00000008#32, 0xBFFFFFFF#32⟩,
    ⟨"RD.PLAINTEXT", 0x00001010#32, 0xBFFFFFFF#32⟩,
    ⟨"RD.TWEAK", 0x00001018#32, 0xBFFFFFFF#32⟩,
    ⟨"RD.RESULT", 0x00001020#32, 0xBFFFFFFF#32⟩,
    ⟨"RD.UNMAPPED", 0x00000000#32, 0x80000000#32⟩,
    ⟨"WR.KEY_LO", 0x80000000#32, 0xBFFFFFFF#32⟩,
    ⟨"WR.KEY_HI", 0x80000008#32, 0xBFFFFFFF#32⟩,
    ⟨"WR.PLAINTEXT", 0x80001010#32, 0xBFFFFFFF#32⟩,
    ⟨"WR.TWEAK", 0x80001018#32, 0xBFFFFFFF#32⟩,
    ⟨"WR.RESULT", 0x80001020#32, 0xBFFFFFFF#32⟩,
    ⟨"WR.UNMAPPED", 0x80000000#32, 0x80000000#32⟩ ]

/-- A descriptor matches a row (R65). -/
def OpcodeRow.matchesDesc (r : OpcodeRow) (d : Desc) : Bool := d &&& r.mask == r.pattern

/-- The descriptor of a direction, an offset and a width in bytes, where there is one: widths other than 4 and 8 have
none, and an offset must fit the 30-bit `OFF` field (R61). -/
def descOf (dir : Dir) (offset width : Nat) : Option Desc :=
  match widthOfBytes width with
  | none => none
  | some w => if offset < 2 ^ 30 then some (packDesc dir w (BitVec.ofNat 30 offset)) else none

/-- The descriptor of a transaction, where it has one (R61). The write data is not part of it. -/
def Transaction.desc? : Transaction → Option Desc
  | ⟨dir, offset, width, _⟩ => descOf dir offset width

/-- What a presented transaction decodes to. One without a descriptor is outside every window (R12 bounds the size by
2^30) or of a width the bus rejects (R61), and so is not admitted (R42). -/
def Transaction.decode : Transaction → Except DecodeError Instr
  | ⟨dir, offset, width, wdata⟩ =>
    match descOf dir offset width with
    | none => .error (.busReject offset width)
    | some d => Sys2Proof.decode d wdata

/-- The transaction a descriptor and its write data stand for (R61). -/
def transactionOf (d : Desc) (wdata : Word) : Transaction :=
  { dir := descDir d, offset := (descOff d).toNat, width := (descWidth d).bytes, wdata := wdata }

/-- The descriptor part of an instruction's bits as the host numbers them (log 14). -/
def tableDesc (nbits w : Nat) : Desc := BitVec.ofNat 32 (w % 2 ^ nbits)

/-- The write-data part: the bits above the descriptor, all 0 for the table's 32-bit rows (log 14). -/
def tableWdata (nbits w : Nat) : Word := BitVec.ofNat 64 (w % 2 ^ nbits / 2 ^ 32)

/-- The instruction the decoder reads from an instruction's bits. -/
def decodeTableWord (nbits w : Nat) : Option Instr :=
  match decode (tableDesc nbits w) (tableWdata nbits w) with
  | .ok i => some i
  | .error _ => none

end Sys2Proof
end

