-- ==== Sys2Proof/Machine/State.lean ====
section
/-! DEFINITION. The state of one PA engine instance (R20), its construction values (R36), and the reasons a step can stop. -/

namespace Sys2Proof.Machine

/-- The register file, the five fields of the spec's `DeviceState` (R20), and what crosses the device's boundary: the
read data of the last transaction performed (R100), the bus events yet to be delivered, in the bus's order (R49), and
whether the instance exists (R160, R161). -/
structure State where
  /-- The lower key half (R21). -/
  keyLo : Word
  /-- The upper key half (R22). -/
  keyHi : Word
  /-- The domain separator (R23). -/
  tweak : Word
  /-- The last address submitted for signing, as written (R24). -/
  plaintext : Word
  /-- The one-shot mailbox (R25). -/
  result : Word
  /-- The `Option u64` of R100's Step: the read data of a read, none after any other event (log 2). -/
  rdata : Option Word
  /-- The bus events not delivered yet, first the next one (R49; log 1). -/
  pending : List BusEvent
  /-- Whether the instance exists: constructed and not torn down since (R160, R161; log 13). -/
  attached : Bool
  deriving DecidableEq, Repr

/-- The faults of the device: none. "No exception/error-return channel exists at this layer; all failure is encoded as
data" (R140), so no step raises one (log 19, safe). -/
inductive Fault where
  deriving DecidableEq, Repr

/-- Why a step has no next state. -/
inductive Refusal where
  /-- Raised by an arm of `exec` whose instruction has no meaning yet. Safe: nothing is claimed of it. No arm raises it. -/
  | notModelled (mnemonic : String)
  /-- Raised by the step for a transaction that is not admitted: it does not reach the device, and what the bus reports
  to the master is outside the block (R42, R143; log 4). Safe: no claim can be made about what follows it. -/
  | busReject (offset width : Nat)
  /-- Raised by the step for a transaction delivered when no instance exists: "After destruction no transaction reaches
  the instance" (R161; log 13). Safe, for the same reason. -/
  | noInstance
  deriving DecidableEq, Repr

/-- The state right after construction (R36, R160): nothing is pending, nothing has been read. -/
def State.reset : State where
  keyLo := keyLoInit
  keyHi := keyHiInit
  tweak := 0
  plaintext := 0
  result := 0
  rdata := none
  pending := []
  attached := true

end Sys2Proof.Machine
end

