-- ==== Sys2Proof/Machine/Flags.lean ====
section
/-! DEFINITION. The conditions the hardware computes. It has no flags (R28): these are consumed by the Auth Engine at once and stored nowhere. -/

namespace Sys2Proof.Machine

/-- `cleaned(p) = p & ~SIG_MASK` (R82). -/
def cleaned (p : Word) : Word := p &&& ~~~sigMask

/-- `signature(p) = p & SIG_MASK` (R82). -/
def signature (p : Word) : Word := p &&& sigMask

/-- The Auth Engine's comparison: the cipher's output against the presented pointer, on bits 62..48 only (R85). -/
def signatureMatches (cipherOutput presented : Word) : Bool := (cipherOutput &&& sigMask) == signature presented

/-- The selector of the canonical form is bit 63 of the cleaned pointer, not bit 47 (R86, C4). -/
def isKernelForm (c : Word) : Bool := c.getLsbD 63

end Sys2Proof.Machine
end

