-- ==== Sys2Proof/Machine/Engines.lean ====
section
/-! DEFINITION. The Sign Engine and the Auth Engine (40_engines.md): pure functions, over any cipher and over the device's own. -/

namespace Sys2Proof.Machine

/-- `SIGN` over a cipher (R83). -/
def signWith (cipher : Cipher) (pointer tweak keyLo keyHi : Word) : Word :=
  let c := cleaned pointer
  let cipherOutput := cipher c tweak keyLo keyHi rounds
  c ||| (cipherOutput &&& sigMask)

/-- The canonical form of a cleaned pointer whose signature matched (R86). -/
def canonical (c : Word) : Word := if isKernelForm c then c ||| canonMask else c

/-- `AUTH` over a cipher (R85): 0, the tamper sentinel, on a mismatch (R87). -/
def authWith (cipher : Cipher) (signedPointer tweak keyLo keyHi : Word) : Word :=
  let c := cleaned signedPointer
  let cipherOutput := cipher c tweak keyLo keyHi rounds
  if signatureMatches cipherOutput signedPointer then canonical c else 0

/-- The Sign Engine of the device (R81, R83). -/
def sign (pointer tweak keyLo keyHi : Word) : Word := signWith Config.encrypt pointer tweak keyLo keyHi

/-- The Auth Engine of the device (R81, R85). -/
def auth (signedPointer tweak keyLo keyHi : Word) : Word := authWith Config.encrypt signedPointer tweak keyLo keyHi

end Sys2Proof.Machine
end

