-- ==== Sys2Proof/Machine/Operands.lean ====
section
/-! DEFINITION. Operand forms: write data, read data, bus addresses, and the byte lanes a byte-addressing master sees. -/

namespace Sys2Proof.Machine

/-- `zext_64(v[31:0])` (R17). -/
def lowHalf (v : Word) : Word := (v.extractLsb' 0 32).setWidth 64

/-- `WriteValue(width, wdata)` (R44, D3). -/
def writeValue (w : Width) (wdata : Word) : Word :=
  match w with
  | .w8 => wdata
  | .w4 => lowHalf wdata

/-- `ReadValue(width, v)` (R45, D4). -/
def readValue (w : Width) (v : Word) : Word :=
  match w with
  | .w8 => v
  | .w4 => lowHalf v

/-- The offset of a bus address, used unmodified, where the bus routes the address into the window (R16, R34, R115; log 21). -/
def offsetOfBusAddress (a : Nat) : Option Nat :=
  if Config.base ≤ a ∧ a < Config.base + windowSize then some (a - Config.base) else none

/-- The transaction of a master's load or store, `MemRead(a, width)` or `MemWrite(a, width, wdata)` (R18, R40). -/
def transactionOfBusAccess (dir : Dir) (a width : Nat) (wdata : Word) : Option Transaction :=
  match offsetOfBusAddress a with
  | none => none
  | some o => some { dir := dir, offset := o, width := width, wdata := wdata }

/-- Bus byte `k` of a value: its bits `[8k+7:8k]` (R43, little-endian, D2; log 11). -/
def byteLane (v : Word) (k : Nat) : Byte := v.extractLsb' (8 * k) 8

/-- The bus bytes of an access at offset `o`: byte `BASE + o + k` carries lane `k`, for `k` below the width (R43). -/
def busBytes (w : Width) (o : Nat) (v : Word) : List Host.Cell :=
  (List.range w.bytes).map fun k => (Config.base + o + k, byteLane v k)

/-- The value a list of bus bytes carries, the lowest address first (R43). -/
def valueOfBytes : List Byte → Word
  | [] => 0
  | b :: bs => b.setWidth 64 ||| (valueOfBytes bs <<< 8)

end Sys2Proof.Machine
end

