-- ==== Sys2Proof/Machine/Ops.lean ====
section
/-! DEFINITION. The named operations over the state: the register file, the answer to the master, the two triggers, the mailbox, and the life of the instance. The device takes no exception (R140, R146), so there is no exception entry and no return. -/

namespace Sys2Proof.Machine

/-- `reg[N]` (R18). -/
def State.readReg (s : State) : RegName → Word
  | .keyLo => s.keyLo
  | .keyHi => s.keyHi
  | .plaintext => s.plaintext
  | .tweak => s.tweak
  | .result => s.result

/-- `reg[N] <- v` (R18). -/
def State.writeReg (s : State) (r : RegName) (v : Word) : State :=
  match r with
  | .keyLo => { s with keyLo := v }
  | .keyHi => { s with keyHi := v }
  | .plaintext => { s with plaintext := v }
  | .tweak => { s with tweak := v }
  | .result => { s with result := v }

/-- `return v` of a read: the read data delivered to the master (R18, R100). -/
def State.respond (s : State) (v : Word) : State := { s with rdata := some v }

/-- The end of a transaction or event that returns no read data (R100). -/
def State.acknowledge (s : State) : State := { s with rdata := none }

/-- A read of a register without a side effect: `return ReadValue(width, reg[r])` (R101 to R104). -/
def State.readTransaction (s : State) (r : RegName) (w : Width) : State := s.respond (readValue w (s.readReg r))

/-- A plain store: `reg[r] <- WriteValue(width, wdata)` (R107, R108, R110). -/
def State.storeTransaction (s : State) (r : RegName) (w : Width) (wdata : Word) : State :=
  (s.writeReg r (writeValue w wdata)).acknowledge

/-- The destructive read of the mailbox: take the value, clear all 64 bits, return the value (R105). -/
def State.drainMailbox (s : State) (w : Width) : State :=
  let v := s.readReg .result
  (s.writeReg .result 0).respond (readValue w v)

/-- The Sign trigger: the engine reads the stored plaintext and the current tweak and keys, and its output goes to
`result` (R81, R109, R147). -/
def State.signTrigger (s : State) (w : Width) (wdata : Word) : State :=
  let stored := s.writeReg .plaintext (writeValue w wdata)
  (stored.writeReg .result
    (sign (stored.readReg .plaintext) (stored.readReg .tweak) (stored.readReg .keyLo) (stored.readReg .keyHi))).acknowledge

/-- The Auth trigger: the engine takes the presented value, which is stored nowhere, and its output goes to `result`
(R81, R111). -/
def State.authTrigger (s : State) (w : Width) (wdata : Word) : State :=
  (s.writeReg .result
    (auth (writeValue w wdata) (s.readReg .tweak) (s.readReg .keyLo) (s.readReg .keyHi))).acknowledge

/-- The construction event: every register at its construction value (R36, R160). What the bus has yet to deliver is
not the device's and stays. -/
def State.construct (s : State) : State :=
  { State.reset with pending := s.pending }

/-- The teardown of the instance (R161). No transaction can see its registers any more; the model leaves them (log 13). -/
def State.destroy (s : State) : State := { s with attached := false, rdata := none }

/-- Put an event before everything the bus has yet to deliver. -/
def State.present (s : State) (e : BusEvent) : State := { s with pending := e :: s.pending }

end Sys2Proof.Machine
end

