-- ==== Sys2Proof/Machine/Reads.lean ====
section
/-! DEFINITION. The meanings of the six reads (R101 to R106). -/

namespace Sys2Proof.Machine

/-- RD.KEY_LO (R101). -/
def execRdKeyLo (w : Width) (s : State) : Host.Outcome State Fault Refusal := .next (s.readTransaction .keyLo w)

/-- RD.KEY_HI (R102). -/
def execRdKeyHi (w : Width) (s : State) : Host.Outcome State Fault Refusal := .next (s.readTransaction .keyHi w)

/-- RD.PLAINTEXT (R103). -/
def execRdPlaintext (w : Width) (s : State) : Host.Outcome State Fault Refusal := .next (s.readTransaction .plaintext w)

/-- RD.TWEAK (R104). -/
def execRdTweak (w : Width) (s : State) : Host.Outcome State Fault Refusal := .next (s.readTransaction .tweak w)

/-- RD.RESULT (R105). -/
def execRdResult (w : Width) (s : State) : Host.Outcome State Fault Refusal := .next (s.drainMailbox w)

/-- RD.UNMAPPED (R106): `return ReadValue(width, DIAG(offset, width))`. -/
def execRdUnmapped (w : Width) (off : BitVec 30) (s : State) : Host.Outcome State Fault Refusal :=
  .next (s.respond (readValue w (Config.diag off.toNat w)))

end Sys2Proof.Machine
end

