-- ==== Sys2Proof/Machine/Writes.lean ====
section
/-! DEFINITION. The meanings of the six writes (R107 to R112). -/

namespace Sys2Proof.Machine

/-- WR.KEY_LO (R107). -/
def execWrKeyLo (w : Width) (wdata : Word) (s : State) : Host.Outcome State Fault Refusal :=
  .next (s.storeTransaction .keyLo w wdata)

/-- WR.KEY_HI (R108). -/
def execWrKeyHi (w : Width) (wdata : Word) (s : State) : Host.Outcome State Fault Refusal :=
  .next (s.storeTransaction .keyHi w wdata)

/-- WR.PLAINTEXT (R109): store, then sign. -/
def execWrPlaintext (w : Width) (wdata : Word) (s : State) : Host.Outcome State Fault Refusal :=
  .next (s.signTrigger w wdata)

/-- WR.TWEAK (R110). -/
def execWrTweak (w : Width) (wdata : Word) (s : State) : Host.Outcome State Fault Refusal :=
  .next (s.storeTransaction .tweak w wdata)

/-- WR.RESULT (R111): authenticate, never sign (C1). -/
def execWrResult (w : Width) (wdata : Word) (s : State) : Host.Outcome State Fault Refusal :=
  .next (s.authTrigger w wdata)

/-- WR.UNMAPPED (R112): the write is discarded. -/
def execWrUnmapped (_w : Width) (_off : BitVec 30) (_wdata : Word) (s : State) : Host.Outcome State Fault Refusal :=
  .next s.acknowledge

end Sys2Proof.Machine
end

