-- ==== Sys2Proof/Machine/Dispatch.lean ====
section
/-! DEFINITION. One arm per decoded transaction (R100). -/

namespace Sys2Proof.Machine

def exec (i : Instr) (s : State) : Host.Outcome State Fault Refusal :=
  match i with
  | .rdKeyLo w => Sys2Proof.Machine.execRdKeyLo w s
  | .rdKeyHi w => Sys2Proof.Machine.execRdKeyHi w s
  | .rdPlaintext w => Sys2Proof.Machine.execRdPlaintext w s
  | .rdTweak w => Sys2Proof.Machine.execRdTweak w s
  | .rdResult w => Sys2Proof.Machine.execRdResult w s
  | .rdUnmapped w off => Sys2Proof.Machine.execRdUnmapped w off s
  | .wrKeyLo w wdata => Sys2Proof.Machine.execWrKeyLo w wdata s
  | .wrKeyHi w wdata => Sys2Proof.Machine.execWrKeyHi w wdata s
  | .wrPlaintext w wdata => Sys2Proof.Machine.execWrPlaintext w wdata s
  | .wrTweak w wdata => Sys2Proof.Machine.execWrTweak w wdata s
  | .wrResult w wdata => Sys2Proof.Machine.execWrResult w wdata s
  | .wrUnmapped w off wdata => Sys2Proof.Machine.execWrUnmapped w off wdata s

end Sys2Proof.Machine
end

