-- ==== Sys2Proof/Machine/Bus.lean ====
section
/-! DEFINITION. The Bus Adapter's side of a step: what the next bus event does to the device (R100, R160, R161). -/

namespace Sys2Proof.Machine

/-- `Step(s, desc, wdata)` (R100): decode, then perform the body of the one rule it selects; BusReject takes no device
step (R143). -/
def performAccess (t : Transaction) (s : State) : Host.Outcome State Fault Refusal :=
  match t.decode with
  | .ok i => exec i s
  | .error (.busReject offset width) => .refused (.busReject offset width)

/-- What a delivered event does. -/
def deliver (e : BusEvent) (s : State) : Host.Outcome State Fault Refusal :=
  match e with
  | .access t => if s.attached then performAccess t s else .refused .noInstance
  | .construct => .next s.construct
  | .destroy => .next s.destroy

/-- The bus delivers its next event (R49). With none pending nothing happens: "No state changes spontaneously" (R33;
log 3). -/
def busStep (s : State) : Host.Outcome State Fault Refusal :=
  match s.pending with
  | [] => .next s
  | e :: rest => deliver e { s with pending := rest }

/-- The state in which the next event delivered is the transaction of these instruction bits, to an instance that
exists (log 1, log 14). -/
def State.withTableWord (s : State) (nbits w : Nat) : State :=
  { s.present (.access (transactionOf (tableDesc nbits w) (tableWdata nbits w))) with attached := true }

end Sys2Proof.Machine
end

