-- ==== Sys2Proof/Machine/Step.lean ====
section
/-! DEFINITION. One step of the machine: one bus event, atomically (R47, R100). -/

namespace Sys2Proof.Machine

/-- One step (R100): the next event of the bus's order (R49), performed to completion (R47). -/
def step (s : State) : Host.Outcome State Fault Refusal := busStep s

/-- `s` with the transaction of these bits as the next event the bus delivers. The device fetches nothing (R28, R53): a
program is the bus's delivery order, and this stands for placing one transaction at its head (log 1). -/
def State.withFetchWord (s : State) (nbits w : Nat) : State := s.withTableWord nbits w

end Sys2Proof.Machine
end

