-- ==== Sys2Proof/Machine/Assembler.lean ====
section
/-! DEFINITION. The spec's transaction-sequence lines and pseudo-operations, as the bus events they stand for (R68, R69). -/

namespace Sys2Proof

/-- "A register name stands for its offset" (R68). -/
def AsmTarget.offset : AsmTarget → Nat
  | .reg r => r.offset
  | .literal o => o

/-- The transaction of a line (R68): its descriptor's fields and, for `wr`, the write data. -/
def AsmLine.transaction : AsmLine → Transaction
  | .rd w target => { dir := .read, offset := target.offset, width := w.bytes, wdata := 0 }
  | .wr w target value => { dir := .write, offset := target.offset, width := w.bytes, wdata := value }

/-- The expansion of a pseudo-operation (R69). It is not atomic: other events may fall between its parts. -/
def PseudoOp.expand : PseudoOp → List AsmLine
  | .setkey klo khi => [.wr .w8 (.reg .keyLo) klo, .wr .w8 (.reg .keyHi) khi]
  | .settweak t => [.wr .w8 (.reg .tweak) t]
  | .sign p => [.wr .w8 (.reg .plaintext) p, .rd .w8 (.reg .result)]
  | .auth sp => [.wr .w8 (.reg .result) sp, .rd .w8 (.reg .result)]
  | .drain => [.rd .w8 (.reg .result)]

/-- The bus events of a list of lines, in order. -/
def eventsOf (lines : List AsmLine) : List BusEvent := lines.map fun l => .access l.transaction

end Sys2Proof
end

