-- ==== Sys2Proof/Safety.lean ====
section
/-! DEFINITION. What claims about runs are stated in: completion, the bus discipline the device assumes, the view of a 32-bit master, and which events leave a register alone. -/

namespace Sys2Proof.Machine

/-- The outcome is a next state. -/
def Completes (o : Host.Outcome State Fault Refusal) : Prop := ∃ t, o = .next t

/-- `n` steps of the machine, stopping at the first refusal. -/
def run (n : Nat) (s : State) : Host.Outcome State Fault Refusal := Host.Core.run Sys2Proof.core n s

/-- The state with exactly these events to be delivered. -/
def State.facing (s : State) (events : List BusEvent) : State := { s with pending := events }

/-- A transaction's event (R40). -/
def accessEvent (dir : Dir) (offset : Nat) (w : Width) (wdata : Word) : BusEvent :=
  .access { dir := dir, offset := offset, width := w.bytes, wdata := wdata }

/-- The number an access of that width carries of a 64-bit value: all of it, or its low 32 bits (R44, R45). -/
def narrowed (w : Width) (v : Word) : Nat := if w = .w8 then v.toNat else v.toNat % 2 ^ 32

/-- Exactly the descriptors of a mapped row of the opcode map decode to this read, at the width of the `SZ` bit (R65). -/
def ReadRow (pattern mask : Desc) (i : Width → Instr) : Prop :=
  ∀ (d : Desc) (v : Word) (w : Width), decode d v = .ok (i w) ↔ d &&& mask = pattern ∧ descWidth d = w

/-- Exactly the descriptors of a mapped row of the opcode map decode to this write, at the width of the `SZ` bit and with
the write data beside the descriptor (R65). -/
def WriteRow (pattern mask : Desc) (i : Width → Word → Instr) : Prop :=
  ∀ (d : Desc) (v x : Word) (w : Width),
    decode d v = .ok (i w x) ↔ d &&& mask = pattern ∧ descWidth d = w ∧ v = x

/-- A list of bus events that the device may assume (R42: "this core assumes pre-validated, fixed-width
transactions"): every transaction is admitted, and none arrives while no instance exists (R161). -/
def deliverable : Bool → List BusEvent → Bool
  | _, [] => true
  | _, .construct :: rest => deliverable true rest
  | _, .destroy :: rest => deliverable false rest
  | alive, .access t :: rest => alive && t.admitted && deliverable alive rest

/-- An admitted transaction, or a reset. -/
def admittedEvent : BusEvent → Bool
  | .access t => t.admitted
  | .construct => true
  | .destroy => false

/-- The bus keeps its side: everything it has yet to deliver is deliverable. -/
def State.disciplined (s : State) : Bool := deliverable s.attached s.pending

/-- An event a master that only uses 4-byte accesses can cause: no 8-byte transaction (R169). -/
def narrowEvent : BusEvent → Bool
  | .access t => t.width != 8
  | .construct => true
  | .destroy => true

/-- Bits 63..32 are zero. -/
def upperClear (v : Word) : Bool := v.extractLsb' 32 32 == 0#32

/-- What a device used by 4-byte accesses only looks like (R169): (a) no key, tweak or plaintext register has a bit above
31; (b) `result` is the sign or authentication of such a pointer, so that of the bits above 31 it has at most the
signature field; (c) no read data has a bit above 31, so the signature field is never seen. -/
structure NarrowView (s : State) : Prop where
  events : s.pending.all narrowEvent = true
  keyLo : upperClear s.keyLo = true
  keyHi : upperClear s.keyHi = true
  tweak : upperClear s.tweak = true
  plaintext : upperClear s.plaintext = true
  result : upperClear (cleaned s.result) = true
  rdata : ∀ v, s.rdata = some v → upperClear v = true

/-- The event is a transaction that neither produces nor consumes a mailbox value: no access at RESULT and no write at
PLAINTEXT (R31, R113). -/
def leavesMailbox : BusEvent → Bool
  | .access t => t.offset != 0x1020 && !(t.dir == .write && t.offset == 0x1010)
  | .construct => false
  | .destroy => false

/-- The event is a transaction that is no write at the offset of `r` (R30). -/
def leavesRegister (r : RegName) : BusEvent → Bool
  | .access t => !(t.dir == .write && t.offset == r.offset)
  | .construct => false
  | .destroy => false

/-- The event is no read at the offset of `r`. -/
def readsNot (r : RegName) : BusEvent → Bool
  | .access t => !(t.dir == .read && t.offset == r.offset)
  | .construct => true
  | .destroy => true

end Sys2Proof.Machine
end

