-- ==== Sys2Proof/Certificates/Slice0/Obligations.lean ====
section
/-! DEFINITION. The statements for the provers, from the numbered rules of spec/. -/

open Sys2Proof Sys2Proof.Machine

/-! ## Encoding and decoding -/

/-- Decoding the descriptor of a well-formed instruction, with its write data, gives the instruction (R61, R64). -/
def Obligations.DecodeOfEncodeIsTheInstruction : Prop :=
  ∀ i : Instr, i.wf = true → decode (encode i) i.wdata = .ok i

/-- Whatever decodes is a well-formed instruction whose descriptor is the decoded one; a write keeps its write data
(R61, R64). -/
def Obligations.EncodeOfDecodeIsTheDescriptor : Prop :=
  ∀ (d : Desc) (v : Word) (i : Instr), decode d v = .ok i →
    i.wf = true ∧ encode i = d ∧ (i.dir = .write → i.wdata = v)

/-- The opcode map (R65): an admitted descriptor decodes, and the row of the instruction it decodes to is the one row it
matches, where an UNMAPPED row (mask 0x80000000) counts as matched only if no mapped row matches. -/
def Obligations.DecoderFollowsTheOpcodeMap : Prop :=
  ∀ (d : Desc) (v : Word), admitted (descOff d).toNat (descWidth d).bytes = true →
    ∃ i, decode d v = .ok i ∧
      ∀ r ∈ opcodeMap, r.mnemonic = i.mnemonic ↔
        (r.matchesDesc d = true ∧
          (r.mask = 0x80000000#32 → ∀ q ∈ opcodeMap, q.mask = 0xBFFFFFFF#32 → q.matchesDesc d = false))

/-- R64: a descriptor that is not admitted is BusReject with its own offset and width; an admitted one decodes to an
instruction of its own direction, width and offset, which is an UNMAPPED row exactly where no register lives. -/
def Obligations.FullDecodeOfADescriptor : Prop :=
  ∀ (d : Desc) (v : Word),
    (admitted (descOff d).toNat (descWidth d).bytes = false →
      decode d v = .error (.busReject (descOff d).toNat (descWidth d).bytes)) ∧
    (admitted (descOff d).toNat (descWidth d).bytes = true →
      ∃ i, decode d v = .ok i ∧ i.dir = descDir d ∧ i.width = descWidth d ∧ i.offset = (descOff d).toNat ∧
        ((i.mnemonic = "RD.UNMAPPED" ∨ i.mnemonic = "WR.UNMAPPED") ↔
          ¬ ((descOff d).toNat = 0x0 ∨ (descOff d).toNat = 0x8 ∨ (descOff d).toNat = 0x1010 ∨
            (descOff d).toNat = 0x1018 ∨ (descOff d).toNat = 0x1020)))

/-- R61: a transaction of width 4 or 8 at an offset below 2^30 has the descriptor WE << 31 | SZ << 30 | OFF, from which
its direction, width and offset are read back; other widths have no descriptor; the write data is no part of it; and
every offset of the window fits. (The packing is the spec's own decision, D18, log 14.) -/
def Obligations.TransactionDescriptorPacking : Prop :=
  ∀ t : Transaction,
    ((t.width = 4 ∨ t.width = 8) → t.offset < 2 ^ 30 →
      ∃ d, t.desc? = some d ∧
        d.toNat = (if t.dir = .write then 2 ^ 31 else 0) + (if t.width = 8 then 2 ^ 30 else 0) + t.offset ∧
        descDir d = t.dir ∧ (descWidth d).bytes = t.width ∧ (descOff d).toNat = t.offset) ∧
    (¬ (t.width = 4 ∨ t.width = 8) → t.desc? = none) ∧
    (∀ v : Word, Transaction.desc? { t with wdata := v } = t.desc?) ∧
    windowSize ≤ 2 ^ 30

/-- The spec's own example descriptors, and one of each kind besides, decode to what they stand for (R61,
95_test_vectors.md V20 to V62). -/
def Obligations.ExampleDescriptorsDecode : Prop :=
  ∀ v : Word,
    decode 0x40001020#32 v = .ok (.rdResult .w8) ∧
    decode 0xC0001010#32 v = .ok (.wrPlaintext .w8 v) ∧
    decode 0x80001018#32 v = .ok (.wrTweak .w4 v) ∧
    decode 0x00000000#32 v = .ok (.rdKeyLo .w4) ∧
    decode 0x0000000C#32 v = .ok (.rdUnmapped .w4 0xC#30) ∧
    decode 0x80001024#32 v = .ok (.wrUnmapped .w4 0x1024#30 v) ∧
    decode 0x40000004#32 v = .error (.busReject 4 8)

/-- R68 (the spec's own notation, D14): a line names its offset or a register's; it encodes as the descriptor of its direction, width and offset, and
a `wr` carries its value, so that a line on a register decodes to the transaction of that register. -/
def Obligations.AssembledLinesDecodeToTheirTransactions : Prop :=
  ∀ (w : Width) (r : RegName) (v : Word),
    (∃ i, (AsmLine.rd w (.reg r)).transaction.decode = .ok i ∧ i.dir = .read ∧ i.width = w ∧ i.offset = r.offset) ∧
    (∃ i, (AsmLine.wr w (.reg r) v).transaction.decode = .ok i ∧ i.dir = .write ∧ i.width = w ∧ i.offset = r.offset ∧
      i.wdata = v) ∧
    (AsmLine.rd w (.reg r)).transaction = (AsmLine.rd w (.literal r.offset)).transaction ∧
    (AsmLine.wr w (.reg r) v).transaction = (AsmLine.wr w (.literal r.offset) v).transaction

/-! ## The window and the boundary of the device -/

/-- R12: the constraints on WINDOW_SIZE and PUBLIC_SIZE (the spec's own decision, D6, log 7). -/
def Obligations.WindowSizesMeetTheirConstraints : Prop :=
  0x1028 ≤ windowSize ∧ windowSize % 8 = 0 ∧ windowSize ≤ 2 ^ 30 ∧
    0 < windowSize - publicSize ∧ windowSize - publicSize < publicSize

/-- R42: the admission condition decides. A transaction that meets it is decoded and performed; one that does not is
BusReject, and the device takes no step for it. (The condition, and that a model refuses, are the spec's own decision,
D5, log 4.) -/
def Obligations.AdmissionDecidesAtTheBoundary : Prop :=
  ∀ (s : State) (t : Transaction) (rest : List BusEvent),
    s.attached = true → s.pending = .access t :: rest →
    (((t.width = 4 ∨ t.width = 8) ∧ t.offset % t.width = 0 ∧ t.offset + t.width ≤ windowSize) →
      ∃ i, t.decode = .ok i ∧ step s = exec i (s.facing rest)) ∧
    (¬ ((t.width = 4 ∨ t.width = 8) ∧ t.offset % t.width = 0 ∧ t.offset + t.width ≤ windowSize) →
      step s = .refused (.busReject t.offset t.width))

/-- R100: where the descriptor of the next transaction decodes, the step is the instruction's own effect, on the state
from which the transaction has been taken. (`pending` and `attached` are the model's own fields, log 1, log 13.) -/
def Obligations.StepRunsTheDecodedInstruction : Prop :=
  ∀ (s : State) (t : Transaction) (rest : List BusEvent) (d : Desc) (i : Instr),
    s.attached = true → s.pending = .access t :: rest → t.desc? = some d → decode d t.wdata = .ok i →
    step s = exec i { s with pending := rest }

/-- R140: every admitted transaction completes, a read with read data. That the instance then goes on with the rest
(`pending`, `attached`), and that a write leaves no read data (`rdata`), is said of the model's own fields, which are its
choice (log 1, log 13, log 2). -/
def Obligations.AdmittedTransactionsComplete : Prop :=
  ∀ (s : State) (t : Transaction) (rest : List BusEvent),
    s.attached = true → s.pending = .access t :: rest → t.admitted = true →
    ∃ u, step s = .next u ∧ u.pending = rest ∧ u.attached = true ∧
      (t.dir = .read → ∃ v, u.rdata = some v) ∧ (t.dir = .write → u.rdata = none)

/-- The step never faults (R140), and it stops in two cases only: BusReject for exactly the transactions that are not
admitted (R42, R143), and noInstance for exactly the transactions delivered to no instance (R161; the model's `attached`
field, log 13). -/
def Obligations.StepStopsOnlyByName : Prop :=
  ∀ s : State,
    (∀ f, step s ≠ .fault f) ∧ (∀ m, step s ≠ .refused (.notModelled m)) ∧
    (∀ o n, step s = .refused (.busReject o n) ↔
      s.attached = true ∧ ∃ t rest, s.pending = .access t :: rest ∧ t.admitted = false ∧ t.offset = o ∧ t.width = n) ∧
    (step s = .refused .noInstance ↔ s.attached = false ∧ ∃ t rest, s.pending = .access t :: rest)

/-- R33: a step leaves all five registers as they were, but for a write at a register's offset, the destructive read at
RESULT (which changes `result` only), and the construction event (R160). That a step with nothing pending changes nothing
is the model's reading (log 3), and that a destroy event leaves the five fields as they were is its choice (log 13). -/
def Obligations.StateChangesOnlyThroughTransactions : Prop :=
  ∀ s u : State, step s = .next u →
    (s.pending = [] → u = s) ∧
    ((∀ r, u.readReg r = s.readReg r) ∨
      (∃ rest, s.pending = .construct :: rest) ∨
      (∃ t rest, s.pending = .access t :: rest ∧
        ((t.dir = .write ∧ ∃ r : RegName, t.offset = r.offset) ∨
          (t.dir = .read ∧ t.offset = 0x1020 ∧ ∀ r, r ≠ .result → u.readReg r = s.readReg r))))

/-- R36, R160: the construction values, in the state after reset and after a construction event, whatever state it finds
(that any reset of the device is this event is the spec's own decision, D9). That the event keeps what is pending and
attaches the instance is the model's choice (log 12, log 13). -/
def Obligations.ConstructionLoadsTheResetValues : Prop :=
  ∀ (s : State) (rest : List BusEvent), s.pending = .construct :: rest →
    ∃ u, step s = .next u ∧ u.pending = rest ∧ u.attached = true ∧
      (u.keyLo = 0xABC#64 ∧ u.keyHi = 0xDEF#64 ∧ u.tweak = 0 ∧ u.plaintext = 0 ∧ u.result = 0) ∧
      ∀ r, State.reset.readReg r = u.readReg r

/-- R161: the teardown takes the instance away: a transaction that comes next reaches none, and only a construction event
gives a new instance, with the construction values. (How the teardown is held in State is the model's, log 13.) -/
def Obligations.DestructionEndsTheInstance : Prop :=
  ∀ (s : State) (rest : List BusEvent), s.pending = .destroy :: rest →
    ∃ u, step s = .next u ∧ u.attached = false ∧ u.pending = rest ∧
      (∀ t more, rest = .access t :: more → step u = .refused .noInstance) ∧
      (∀ more, rest = .construct :: more →
        ∃ v, step u = .next v ∧ v.attached = true ∧ v.pending = more ∧ ∀ r, v.readReg r = State.reset.readReg r)

/-- R66: an unmapped offset is not illegal. An admitted read there completes with DIAG(offset, width) as its data (the
low 32 bits of it at width 4: R45, R106, the spec's own decision D4, log 10), and an admitted write there is ignored;
either leaves every register alone. The upper halves of the five registers are such offsets. (`rdata` is the model's place
for the read data, log 2.) -/
def Obligations.UnmappedOffsetsAreNotIllegal : Prop :=
  ∀ (s : State) (dir : Dir) (o : Nat) (w : Width) (x : Word) (rest : List BusEvent),
    s.attached = true → s.pending = accessEvent dir o w x :: rest → admitted o w.bytes = true →
    (∀ r : RegName, o ≠ r.offset) →
    (dir = .read → ∃ v, step s = .next { s with pending := rest, rdata := some v } ∧
      v.toNat = narrowed w (Config.diag o w)) ∧
    (dir = .write → step s = .next { s with pending := rest, rdata := none }) ∧
    (∀ q r : RegName, q.offset + 4 ≠ r.offset)

/-- R43: the lanes are little-endian (the spec's own decision, D2, log 11). Bus byte `BASE + o + k` carries bits `[8k+7:8k]`, for every `k` below the width
and no other, and the bytes together carry the value an access of that width carries. -/
def Obligations.BusBytesAreLittleEndian : Prop :=
  ∀ (w : Width) (o : Nat) (v : Word),
    (busBytes w o v).length = w.bytes ∧
    (∀ k, k < w.bytes → ∃ b : Byte, (busBytes w o v)[k]? = some (Config.base + o + k, b) ∧
      ∀ j, j < 8 → b.getLsbD j = v.getLsbD (8 * k + j)) ∧
    (valueOfBytes ((busBytes w o v).map Prod.snd)).toNat = narrowed w v

/-- R115, R16, R34: a bus address in the window, and no other, becomes the offset `a - BASE`, unmodified. -/
def Obligations.BusAddressesBecomeOffsets : Prop :=
  ∀ (dir : Dir) (a n : Nat) (x : Word) (t : Transaction),
    transactionOfBusAccess dir a n x = some t ↔
      Config.base + t.offset = a ∧ t.offset < windowSize ∧ t.dir = dir ∧ t.width = n ∧ t.wdata = x

/-! ## The twelve transactions: encoding, result, everything else unchanged

What a 4-byte access carries (`narrowed`) is R44's and R45's, which the spec marks as its own decisions D3 and D4 (log 9,
log 10). That a write leaves `rdata` at none is R100's `(s', None)`, held in State (log 2). -/

/-- R101 to R104: RD.KEY_LO, RD.KEY_HI, RD.PLAINTEXT and RD.TWEAK complete in every state with the register as read data
(its low 32 bits at width 4) and change nothing else; and exactly the descriptors of their rows decode to them. -/
def Obligations.RegisterReadsReturnTheRegister : Prop :=
  (∀ (w : Width) (s : State),
    (∃ v, exec (.rdKeyLo w) s = .next { s with rdata := some v } ∧ v.toNat = narrowed w s.keyLo) ∧
    (∃ v, exec (.rdKeyHi w) s = .next { s with rdata := some v } ∧ v.toNat = narrowed w s.keyHi) ∧
    (∃ v, exec (.rdPlaintext w) s = .next { s with rdata := some v } ∧ v.toNat = narrowed w s.plaintext) ∧
    (∃ v, exec (.rdTweak w) s = .next { s with rdata := some v } ∧ v.toNat = narrowed w s.tweak)) ∧
  ReadRow 0x00000000#32 0xBFFFFFFF#32 .rdKeyLo ∧ ReadRow 0x00000008#32 0xBFFFFFFF#32 .rdKeyHi ∧
  ReadRow 0x00001010#32 0xBFFFFFFF#32 .rdPlaintext ∧ ReadRow 0x00001018#32 0xBFFFFFFF#32 .rdTweak

/-- R105: RD.RESULT completes in every state: the value of `result` (its low 32 bits at width 4) is the read data, all 64
bits of `result` become 0 at either width, nothing else changes, and an immediate second read returns 0. -/
def Obligations.ResultReadIsDestructive : Prop :=
  (∀ (w w' : Width) (s : State),
    ∃ v, exec (.rdResult w) s = .next { s with result := 0, rdata := some v } ∧ v.toNat = narrowed w s.result ∧
      exec (.rdResult w') { s with result := 0, rdata := some v } = .next { s with result := 0, rdata := some 0 }) ∧
  ReadRow 0x00001020#32 0xBFFFFFFF#32 .rdResult

/-- R106: RD.UNMAPPED completes in every state with DIAG(offset, width) as read data (its low 32 bits at width 4), the
same whatever the state, and changes nothing else; it is what every admitted read descriptor off the five offsets
decodes to. -/
def Obligations.UnmappedReadReturnsDiag : Prop :=
  (∀ (w : Width) (off : BitVec 30), ∃ v : Word, v.toNat = narrowed w (Config.diag off.toNat w) ∧
    ∀ s : State, exec (.rdUnmapped w off) s = .next { s with rdata := some v }) ∧
  (∀ (d : Desc) (x : Word) (w : Width) (off : BitVec 30),
    decode d x = .ok (.rdUnmapped w off) ↔
      d &&& 0x80000000#32 = 0x00000000#32 ∧ descWidth d = w ∧ descOff d = off ∧ (∀ r : RegName, off.toNat ≠ r.offset) ∧
        off.toNat % w.bytes = 0 ∧ off.toNat + w.bytes ≤ windowSize)

/-- R107, R108, R110: WR.KEY_LO, WR.KEY_HI and WR.TWEAK complete in every state: their register takes the write data (the
low 32 bits, zero-extended, at width 4), and nothing else changes, `result` included. -/
def Obligations.PlainWritesStoreTheRegister : Prop :=
  (∀ (w : Width) (x : Word) (s : State), ∃ v : Word, v.toNat = narrowed w x ∧
    exec (.wrKeyLo w x) s = .next { s with keyLo := v, rdata := none } ∧
    exec (.wrKeyHi w x) s = .next { s with keyHi := v, rdata := none } ∧
    exec (.wrTweak w x) s = .next { s with tweak := v, rdata := none }) ∧
  WriteRow 0x80000000#32 0xBFFFFFFF#32 .wrKeyLo ∧ WriteRow 0x80000008#32 0xBFFFFFFF#32 .wrKeyHi ∧
  WriteRow 0x80001018#32 0xBFFFFFFF#32 .wrTweak

/-- R109: WR.PLAINTEXT completes in every state: `plaintext` takes the value as written (zero-extended at width 4), and
`result` takes that value with bits 62..48 replaced by those of ENCRYPT of the cleaned value under the tweak and keys
stored before, 7 rounds; nothing else changes. -/
def Obligations.PlaintextWriteStoresAndSigns : Prop :=
  (∀ (w : Width) (x : Word) (s : State), ∃ v r : Word, v.toNat = narrowed w x ∧
    exec (.wrPlaintext w x) s = .next { s with plaintext := v, result := r, rdata := none } ∧
    ∀ i, r.getLsbD i =
      if 48 ≤ i ∧ i ≤ 62 then
        (Config.encrypt (v &&& 0x8000FFFFFFFFFFFF#64) s.tweak s.keyLo s.keyHi 7#32).getLsbD i
      else v.getLsbD i) ∧
  WriteRow 0x80001010#32 0xBFFFFFFF#32 .wrPlaintext

/-- R111: WR.RESULT completes in every state: `result` takes 0 where bits 62..48 of the value differ from those of
ENCRYPT of the cleaned value under the stored tweak and keys; otherwise it takes the canonical address, whose bits 63..48
are all bit 63 of the value and whose other bits are the value's. Nothing else changes. -/
def Obligations.ResultWriteAuthenticates : Prop :=
  (∀ (w : Width) (x : Word) (s : State), ∃ v r : Word, v.toNat = narrowed w x ∧
    exec (.wrResult w x) s = .next { s with result := r, rdata := none } ∧
    ((Config.encrypt (v &&& 0x8000FFFFFFFFFFFF#64) s.tweak s.keyLo s.keyHi 7#32).extractLsb' 48 15 ≠ v.extractLsb' 48 15 →
      r = 0) ∧
    ((Config.encrypt (v &&& 0x8000FFFFFFFFFFFF#64) s.tweak s.keyLo s.keyHi 7#32).extractLsb' 48 15 = v.extractLsb' 48 15 →
      ∀ i, i < 64 → r.getLsbD i = if i < 48 then v.getLsbD i else v.getLsbD 63)) ∧
  WriteRow 0x80001020#32 0xBFFFFFFF#32 .wrResult

/-- R112: WR.UNMAPPED completes in every state and changes nothing; it is what every admitted write descriptor off the
five offsets decodes to. -/
def Obligations.UnmappedWriteIsDiscarded : Prop :=
  (∀ (w : Width) (off : BitVec 30) (x : Word) (s : State),
    exec (.wrUnmapped w off x) s = .next { s with rdata := none }) ∧
  (∀ (d : Desc) (v x : Word) (w : Width) (off : BitVec 30),
    decode d v = .ok (.wrUnmapped w off x) ↔
      d &&& 0x80000000#32 = 0x80000000#32 ∧ descWidth d = w ∧ descOff d = off ∧ v = x ∧
        (∀ r : RegName, off.toNat ≠ r.offset) ∧ off.toNat % w.bytes = 0 ∧ off.toNat + w.bytes ≤ windowSize)

/-- The frame of all twelve (R100: "Fields a rule does not name are unchanged", R113): only WR.KEY_LO changes `key_lo`,
only WR.KEY_HI `key_hi`, only WR.TWEAK `tweak`, only WR.PLAINTEXT `plaintext`, only RD.RESULT, WR.PLAINTEXT and WR.RESULT
`result`; a read answers with data and a write with none (`rdata`, log 2); what the bus has yet to deliver, and the
instance, stay (`pending`, `attached`, the model's own fields: log 1, log 13). -/
def Obligations.FieldsARuleDoesNotNameAreUnchanged : Prop :=
  ∀ (i : Instr) (s t : State), exec i s = .next t →
    (i.mnemonic ≠ "WR.KEY_LO" → t.keyLo = s.keyLo) ∧
    (i.mnemonic ≠ "WR.KEY_HI" → t.keyHi = s.keyHi) ∧
    (i.mnemonic ≠ "WR.TWEAK" → t.tweak = s.tweak) ∧
    (i.mnemonic ≠ "WR.PLAINTEXT" → t.plaintext = s.plaintext) ∧
    (i.mnemonic ≠ "RD.RESULT" → i.mnemonic ≠ "WR.PLAINTEXT" → i.mnemonic ≠ "WR.RESULT" → t.result = s.result) ∧
    (i.dir = .read ↔ ∃ v, t.rdata = some v) ∧
    t.pending = s.pending ∧ t.attached = s.attached

/-! ## The engines, for every cipher -/

/-- R82: cleaned and signature split a pointer at the mask's bits. -/
def Obligations.CleanedAndSignatureSplitAPointer : Prop :=
  ∀ p : Word,
    cleaned p ||| signature p = p ∧
    ∀ i, i < 64 →
      (cleaned p).getLsbD i = (if 48 ≤ i ∧ i ≤ 62 then false else p.getLsbD i) ∧
      (signature p).getLsbD i = (if 48 ≤ i ∧ i ≤ 62 then p.getLsbD i else false)

/-- R83, bit by bit, for every cipher; the device's engine is the one over ENCRYPT. -/
def Obligations.SignReplacesTheSignatureBits : Prop :=
  (∀ (E : Cipher) (p t kl kh : Word) (i : Nat),
    (signWith E p t kl kh).getLsbD i =
      if 48 ≤ i ∧ i ≤ 62 then (E (p &&& 0x8000FFFFFFFFFFFF#64) t kl kh 7#32).getLsbD i else p.getLsbD i) ∧
  ∀ p t kl kh : Word, sign p t kl kh = signWith Config.encrypt p t kl kh

/-- R84 (which the spec derives from R83), the laws (a) to (d) of SIGN, for every cipher. -/
def Obligations.LawsOfSign : Prop :=
  ∀ (E : Cipher) (p q t kl kh : Word),
    signWith E p t kl kh &&& 0x8000FFFFFFFFFFFF#64 = p &&& 0x8000FFFFFFFFFFFF#64 ∧
    signWith E p t kl kh = signWith E (p &&& 0x8000FFFFFFFFFFFF#64) t kl kh ∧
    signWith E (signWith E p t kl kh) t kl kh = signWith E p t kl kh ∧
    ((∀ i, (i < 48 ∨ i = 63) → p.getLsbD i = q.getLsbD i) → signWith E p t kl kh = signWith E q t kl kh)

/-- R85, for every cipher: 0 on a mismatch of bits 62..48, otherwise the cleaned pointer, with bits 63..48 set where bit
63 is; the device's engine is the one over ENCRYPT. -/
def Obligations.AuthComparesAndReconstructs : Prop :=
  (∀ (E : Cipher) (p t kl kh : Word),
    authWith E p t kl kh =
      if (E (p &&& 0x8000FFFFFFFFFFFF#64) t kl kh 7#32) &&& 0x7FFF000000000000#64 ≠ p &&& 0x7FFF000000000000#64 then 0
      else if (p &&& 0x8000FFFFFFFFFFFF#64).getLsbD 63 = false then p &&& 0x8000FFFFFFFFFFFF#64
      else (p &&& 0x8000FFFFFFFFFFFF#64) ||| 0xFFFF000000000000#64) ∧
  ∀ p t kl kh : Word, auth p t kl kh = authWith Config.encrypt p t kl kh

/-- R86: on a match every bit above 47 of the output is bit 63 of the presented pointer, whatever bit 47 is. -/
def Obligations.CanonicalFormFollowsBit63 : Prop :=
  ∀ (E : Cipher) (p t kl kh : Word),
    (E (p &&& 0x8000FFFFFFFFFFFF#64) t kl kh 7#32) &&& 0x7FFF000000000000#64 = p &&& 0x7FFF000000000000#64 →
    ∀ i, i < 64 → (authWith E p t kl kh).getLsbD i = if i < 48 then p.getLsbD i else p.getLsbD 63

/-- R87: a mismatch gives 0; a match gives 0 exactly where bits 63 and 47..0 of the presented pointer are all zero, and
never where bit 63 is set. -/
def Obligations.TamperSentinelAndNull : Prop :=
  ∀ (E : Cipher) (p t kl kh : Word),
    ((E (p &&& 0x8000FFFFFFFFFFFF#64) t kl kh 7#32) &&& 0x7FFF000000000000#64 ≠ p &&& 0x7FFF000000000000#64 →
      authWith E p t kl kh = 0) ∧
    ((E (p &&& 0x8000FFFFFFFFFFFF#64) t kl kh 7#32) &&& 0x7FFF000000000000#64 = p &&& 0x7FFF000000000000#64 →
      (authWith E p t kl kh = 0 ↔ ∀ i, (i < 48 ∨ i = 63) → p.getLsbD i = false) ∧
      (p.getLsbD 63 = true → authWith E p t kl kh ≠ 0))

/-- R88 (which the spec derives from R85 and R86): the range of AUTH is 0, a value with bits 63..48 all 0, or a value with
them all 1; bit 63 never differs from bits 62..48. -/
def Obligations.RangeOfAuth : Prop :=
  ∀ (E : Cipher) (p t kl kh : Word),
    (authWith E p t kl kh = 0 ∨ (authWith E p t kl kh).extractLsb' 48 16 = 0#16 ∨
      (authWith E p t kl kh).extractLsb' 48 16 = 0xFFFF#16) ∧
    ∀ i, 48 ≤ i → i ≤ 62 → (authWith E p t kl kh).getLsbD i = (authWith E p t kl kh).getLsbD 63

/-- R89: signing and then authenticating under the same keys and tweak gives the canonical address, for every cipher. -/
def Obligations.SignThenAuthRoundTrip : Prop :=
  ∀ (E : Cipher) (p t kl kh : Word),
    (p.getLsbD 63 = false →
      authWith E (signWith E p t kl kh) t kl kh = p &&& 0x8000FFFFFFFFFFFF#64) ∧
    (p.getLsbD 63 = true →
      authWith E (signWith E p t kl kh) t kl kh = (p &&& 0x8000FFFFFFFFFFFF#64) ||| 0xFFFF000000000000#64)

/-- R90: a change confined to bits 62..48 of a signed pointer is always detected; any other change is, unless the cipher
gives the changed pointer the very bits it presents. -/
def Obligations.TamperDetection : Prop :=
  ∀ (E : Cipher) (p t kl kh m : Word), m ≠ 0 →
    (m &&& 0x8000FFFFFFFFFFFF#64 = 0 → authWith E (signWith E p t kl kh ^^^ m) t kl kh = 0) ∧
    (authWith E (signWith E p t kl kh ^^^ m) t kl kh = 0 ∨
      (E ((signWith E p t kl kh ^^^ m) &&& 0x8000FFFFFFFFFFFF#64) t kl kh 7#32).extractLsb' 48 15 =
        (signWith E p t kl kh ^^^ m).extractLsb' 48 15)

/-- R80, R91: two ciphers (or one under two keys and tweaks) that agree on bits 62..48 for a cleaned pointer cannot be
told apart by either engine at that pointer: only those bits are ever observable, and keys and tweak act through the
cipher's arguments alone. -/
def Obligations.OnlySignatureBitsOfTheCipherAreObservable : Prop :=
  ∀ (E F : Cipher) (p t t' kl kl' kh kh' : Word),
    (E (p &&& 0x8000FFFFFFFFFFFF#64) t kl kh 7#32).extractLsb' 48 15 =
      (F (p &&& 0x8000FFFFFFFFFFFF#64) t' kl' kh' 7#32).extractLsb' 48 15 →
    signWith E p t kl kh = signWith F p t' kl' kh' ∧ authWith E p t kl kh = authWith F p t' kl' kh'

/-! ## Whole-machine rules

The fields `pending`, `attached` and `rdata` that these speak of are the model's own (log 1, log 13, log 2). -/

/-- R31: the one-shot mailbox. After a trigger, with any deliverable transactions in between that neither trigger nor
read RESULT, the first read at RESULT returns the value produced (its low 32 bits at width 4), and the next one, again
with any such transactions in between, returns 0; and what the mailbox held before the trigger is never observable, since
the states after the trigger are the same whatever it was. -/
def Obligations.MailboxValueIsReadExactlyOnce : Prop :=
  ∀ (s : State) (off : Nat) (w w1 w2 : Width) (x : Word) (es1 es2 rest : List BusEvent),
    s.attached = true → (off = 0x1010 ∨ off = 0x1020) →
    es1.all leavesMailbox = true → es2.all leavesMailbox = true →
    deliverable true es1 = true → deliverable true es2 = true →
    ∃ a b c,
      (∀ old : Word,
        step ({ s with result := old }.facing (accessEvent .write off w x ::
          (es1 ++ accessEvent .read 0x1020 w1 0 :: (es2 ++ accessEvent .read 0x1020 w2 0 :: rest)))) = .next a) ∧
      run (es1.length + 1) a = .next b ∧ (∃ v, b.rdata = some v ∧ v.toNat = narrowed w1 a.result) ∧ b.result = 0 ∧
      run (es2.length + 1) b = .next c ∧ c.rdata = some 0 ∧ c.pending = rest

/-- R30: keys, tweak and plaintext persist. Any deliverable transactions none of which writes at the register's own
offset leave it as it was. -/
def Obligations.RegistersPersistUntilRewritten : Prop :=
  ∀ (r : RegName) (s : State) (es rest : List BusEvent), r ≠ .result → s.attached = true →
    es.all (leavesRegister r) = true → deliverable true es = true →
    ∃ t, run es.length (s.facing (es ++ rest)) = .next t ∧ t.readReg r = s.readReg r ∧ t.pending = rest

/-- R50: last write wins. Of two admitted writes at one offset, one after the other, only the second leaves a trace; of two
triggers, only the second leaves its result. -/
def Obligations.LastWriteWins : Prop :=
  ∀ (s : State) (o o' : Nat) (w w' : Width) (x x' : Word) (rest : List BusEvent), s.attached = true →
    (admitted o w.bytes = true → admitted o w'.bytes = true →
      run 2 (s.facing (accessEvent .write o w x :: accessEvent .write o w' x' :: rest)) =
        run 1 (s.facing (accessEvent .write o w' x' :: rest))) ∧
    ((o = 0x1010 ∨ o = 0x1020) → (o' = 0x1010 ∨ o' = 0x1020) →
      ∃ t u, run 2 (s.facing (accessEvent .write o w x :: accessEvent .write o' w' x' :: rest)) = .next t ∧
        run 1 (s.facing (accessEvent .write o' w' x' :: rest)) = .next u ∧ t.result = u.result)

/-- R46: every admitted transaction but the read at RESULT is idempotent: done twice it leaves the state (and the read
data) that doing it once leaves. A repeated read at RESULT returns 0. -/
def Obligations.EverythingButTheResultReadIsIdempotent : Prop :=
  ∀ (s : State) (dir : Dir) (o : Nat) (w : Width) (x : Word) (rest : List BusEvent),
    s.attached = true → admitted o w.bytes = true →
    (¬ (dir = .read ∧ o = 0x1020) →
      run 2 (s.facing (accessEvent dir o w x :: accessEvent dir o w x :: rest)) =
        run 1 (s.facing (accessEvent dir o w x :: rest))) ∧
    ((dir = .read ∧ o = 0x1020) →
      ∃ t, run 2 (s.facing (accessEvent dir o w x :: accessEvent dir o w x :: rest)) = .next t ∧ t.rdata = some 0 ∧
        t.result = 0)

/-- R49, R165: what the bus delivers later has no effect on what came before: a run over the first events is the same
whatever is still to come. -/
def Obligations.LaterEventsDoNotReachBack : Prop :=
  ∀ (s t : State) (es rest : List BusEvent),
    run es.length (s.facing es) = .next t →
    run es.length (s.facing (es ++ rest)) = .next (t.facing rest)

/-- R165: a key or tweak write that comes after the trigger neither changes its result nor recomputes it: the trigger
followed by it leaves the `result` that the trigger alone leaves, and either trigger's result is that of the tweak and keys
stored before it. (What a 4-byte trigger carries is R44's, the spec's own decision D3, log 9.) -/
def Obligations.LateKeyWritesDoNotChangeTheResult : Prop :=
  ∀ (s : State) (off o : Nat) (w w' : Width) (x x' : Word) (rest : List BusEvent), s.attached = true →
    (off = 0x1010 ∨ off = 0x1020) → (o = 0x0 ∨ o = 0x8 ∨ o = 0x1018) →
    ∃ t u, run 2 (s.facing (accessEvent .write off w x :: accessEvent .write o w' x' :: rest)) = .next t ∧
      run 1 (s.facing (accessEvent .write off w x :: rest)) = .next u ∧ t.result = u.result ∧
      (off = 0x1010 → u.result = sign (writeValue w x) s.tweak s.keyLo s.keyHi) ∧
      (off = 0x1020 → u.result = auth (writeValue w x) s.tweak s.keyLo s.keyHi)

/-- R69, R89: the pseudo-operations `sign p` and then `auth` of the value it read, run on the device, read back the signed
pointer, which keeps bits 63 and 47..0 of `p`, and then the canonical address of `p`. -/
def Obligations.SignThenAuthThroughTheMailbox : Prop :=
  ∀ (s : State) (p : Word) (rest : List BusEvent), s.attached = true →
    ∃ t sp, run 2 (s.facing (eventsOf (PseudoOp.sign p).expand ++ rest)) = .next t ∧ t.rdata = some sp ∧
      t.pending = rest ∧ (∀ i, (i < 48 ∨ i = 63) → sp.getLsbD i = p.getLsbD i) ∧
      ∀ more : List BusEvent,
        ∃ u c, run 2 (t.facing (eventsOf (PseudoOp.auth sp).expand ++ more)) = .next u ∧ u.rdata = some c ∧
          u.pending = more ∧ ∀ i, i < 64 → c.getLsbD i = if i < 48 then p.getLsbD i else p.getLsbD 63

/-- R90 on the device: `auth` of a pointer the device has signed, with any of its bits 62..48 flipped, reads 0. -/
def Obligations.TamperedSignatureReadsZero : Prop :=
  ∀ (s : State) (p m : Word) (rest : List BusEvent), s.attached = true → m ≠ 0 →
    (∀ i, (i < 48 ∨ i = 63) → m.getLsbD i = false) →
    ∃ t sp, run 2 (s.facing (eventsOf (PseudoOp.sign p).expand ++ rest)) = .next t ∧ t.rdata = some sp ∧
      ∀ more : List BusEvent,
        ∃ u, run 2 (t.facing (eventsOf (PseudoOp.auth (sp ^^^ m)).expand ++ more)) = .next u ∧ u.rdata = some 0

/-- R163: under the construction values every instance is alike: a pointer signed on one freshly constructed instance
authenticates on any other, whatever the two held before. -/
def Obligations.FreshInstancesAgree : Prop :=
  ∀ (s z : State) (p : Word) (rest more : List BusEvent),
    ∃ t sp, run 3 (s.facing (.construct :: (eventsOf (PseudoOp.sign p).expand ++ rest))) = .next t ∧ t.rdata = some sp ∧
      ∃ u c, run 3 (z.facing (.construct :: (eventsOf (PseudoOp.auth sp).expand ++ more))) = .next u ∧ u.rdata = some c ∧
        ∀ i, i < 64 → c.getLsbD i = if i < 48 then p.getLsbD i else p.getLsbD 63

/-- R24, R81: the `plaintext` register is seen by reads at PLAINTEXT only. In a run without such a read nothing else of
the outcome depends on it, and it makes no run stop. -/
def Obligations.PlaintextIsSeenOnlyByItsOwnReads : Prop :=
  ∀ (n : Nat) (s t : State) (p : Word), s.pending.all (readsNot .plaintext) = true →
    run n s = .next t → ∃ q, run n { s with plaintext := p } = .next { t with plaintext := q }

/-- R169 (which the spec derives): what a 32-bit master can make of the device and see of it is kept by every step: no key,
tweak or plaintext bit above 31, of the bits of `result` above 31 none but its signature field (which a trigger may fill
from ENCRYPT), and no read-data bit above 31 (so never that field). That the registers are kept over a destroy event is the
model's choice (log 13). -/
def Obligations.NarrowMasterViewIsInvariant : Prop :=
  ∀ s t : State, NarrowView s → step s = .next t → NarrowView t

/-- The view of a 32-bit master holds after reset, and however many events without an 8-byte transaction are then to be
delivered (R36, R169). -/
def Obligations.NarrowMasterViewHoldsAtReset : Prop :=
  NarrowView State.reset ∧ ∀ es : List BusEvent, es.all narrowEvent = true → NarrowView (State.reset.facing es)

/-- R42, R140: where everything the bus has yet to deliver is admitted and finds an instance, a step completes and leaves
that so. -/
def Obligations.DisciplinedBusIsInvariant : Prop :=
  ∀ s : State, s.disciplined = true → ∃ t, step s = .next t ∧ t.disciplined = true

/-- The discipline holds after reset, where nothing is pending, and whatever admitted transactions and resets are then to
be delivered. -/
def Obligations.DisciplineHoldsAtReset : Prop :=
  State.reset.disciplined = true ∧
    ∀ es : List BusEvent, es.all admittedEvent = true → (State.reset.facing es).disciplined = true

/-- R140: a device on a disciplined bus never stops: every number of steps completes, and after as many steps as there
were events all are delivered. -/
def Obligations.DisciplinedRunsNeverStop : Prop :=
  ∀ s : State, s.disciplined = true →
    (∀ n, ∃ t, run n s = .next t) ∧ ∃ t, run s.pending.length s = .next t ∧ t.pending = []
end

