-- ==== Sys2Proof/Laws/Window.lean ====
section
/-! SUPPORT. What the window, admission and the offset decoder say, once. -/

namespace Sys2Proof

/-- The least window is no larger than the window (R12). -/
theorem minWindow_le_windowSize : minWindow ≤ windowSize := Nat.le_add_right _ _

/-- The window's end test is the plain comparison with WINDOW_SIZE (R42). -/
theorem fitsWindow_iff (e : Nat) : fitsWindow e = true ↔ e ≤ windowSize := by
  have h := minWindow_le_windowSize
  simp only [fitsWindow, Bool.or_eq_true, decide_eq_true_eq]
  omega

/-- Admission, as the spec's predicate has it (R42). -/
theorem admitted_iff (offset width : Nat) :
    admitted offset width = true ↔ (width = 4 ∨ width = 8) ∧ offset % width = 0 ∧ offset + width ≤ windowSize := by
  simp [admitted, fitsWindow_iff, and_assoc]

/-- An offset decodes to a register exactly where that register lives (R63). -/
theorem decodeOffset_eq_some_iff (o : Nat) (r : RegName) : decodeOffset o = some r ↔ o = r.offset := by
  unfold decodeOffset
  cases r <;> simp only [RegName.offset] <;> split_ifs <;> simp_all

/-- An offset is unmapped exactly where no register lives (R63). -/
theorem decodeOffset_eq_none_iff (o : Nat) : decodeOffset o = none ↔ ∀ r : RegName, o ≠ r.offset := by
  constructor
  · intro h r hr
    rw [(decodeOffset_eq_some_iff o r).mpr hr] at h
    cases h
  · intro h
    cases hd : decodeOffset o with
    | none => rfl
    | some r => exact absurd ((decodeOffset_eq_some_iff o r).mp hd) (h r)

/-- A register is reached by an admitted access at either width (R41). -/
theorem admitted_register (r : RegName) (w : Width) : admitted r.offset w.bytes = true := by
  cases r <;> cases w <;> rfl

/-- The window ends within the descriptor's 30-bit offset range (R12, R61). -/
theorem windowSize_le : windowSize ≤ 2 ^ 30 := by
  have h := Config.windowSlack.isLt
  simp only [windowSize, minWindow]
  omega

end Sys2Proof
end

