-- ==== Sys2Proof/Laws/Decode.lean ====
section
/-! SUPPORT. The fields of a packed descriptor, and what decoding one gives, once. -/

namespace Sys2Proof

/-- The bits of a packed descriptor (R61). -/
theorem getLsbD_packDesc (dir : Dir) (w : Width) (off : BitVec 30) (i : Nat) :
    (packDesc dir w off).getLsbD i =
      if i < 30 then off.getLsbD i else if i < 31 then w.bit.getLsbD (i - 30) else dir.bit.getLsbD (i - 31) := by
  simp only [packDesc, BitVec.getLsbD_append]
  by_cases h30 : i < 30
  · simp [h30]
  · by_cases h31 : i < 31
    · have : i = 30 := by omega
      simp [this]
    · have h1 : ¬ (i - 30 < 1) := by omega
      have h2 : i - 30 - 1 = i - 31 := by omega
      simp [h30, h31, h1, h2]

@[simp] theorem descDir_packDesc (dir : Dir) (w : Width) (off : BitVec 30) : descDir (packDesc dir w off) = dir := by
  cases dir <;> simp only [descDir, getLsbD_packDesc] <;> rfl

@[simp] theorem descWidth_packDesc (dir : Dir) (w : Width) (off : BitVec 30) : descWidth (packDesc dir w off) = w := by
  cases w <;> simp only [descWidth, getLsbD_packDesc] <;> rfl

@[simp] theorem descOff_packDesc (dir : Dir) (w : Width) (off : BitVec 30) : descOff (packDesc dir w off) = off := by
  apply BitVec.eq_of_getLsbD_eq
  intro i hi
  simp only [descOff, BitVec.getLsbD_extractLsb', getLsbD_packDesc, Nat.zero_add, hi, decide_true, Bool.true_and, if_true]

/-- Every descriptor is the packing of its own fields: no bit is dropped (R61). -/
theorem packDesc_fields (d : Desc) : packDesc (descDir d) (descWidth d) (descOff d) = d := by
  apply BitVec.eq_of_getLsbD_eq
  intro i hi
  simp only [getLsbD_packDesc, descOff, BitVec.getLsbD_extractLsb', Nat.zero_add]
  by_cases h30 : i < 30
  · simp only [h30, if_true, decide_true, Bool.true_and]
  · by_cases h31 : i < 31
    · have e : i = 30 := by omega
      subst e
      simp only [descWidth]
      cases d.getLsbD 30 <;> rfl
    · have e : i = 31 := by omega
      subst e
      simp only [descDir]
      cases d.getLsbD 31 <;> rfl

/-- The widths and their byte counts agree. -/
@[simp] theorem widthOfBytes_bytes (w : Width) : widthOfBytes w.bytes = some w := by
  cases w <;> rfl

theorem widthOfBytes_eq_some_iff (n : Nat) (w : Width) : widthOfBytes n = some w ↔ n = w.bytes := by
  unfold widthOfBytes
  cases w <;> simp only [Width.bytes] <;> split_ifs <;> simp_all

/-- Decoding a transaction is decoding its descriptor, where it has one (R61, R64). -/
theorem decode_via_desc (t : Transaction) :
    t.decode = match t.desc? with
      | none => .error (.busReject t.offset t.width)
      | some d => Sys2Proof.decode d t.wdata := rfl

/-- The descriptor of a transaction whose width and offset fit one (R61). -/
theorem desc?_of_fits {t : Transaction} {w : Width} (hw : t.width = w.bytes) (ho : t.offset < 2 ^ 30) :
    t.desc? = some (packDesc t.dir w (BitVec.ofNat 30 t.offset)) := by
  show descOf t.dir t.offset t.width = _
  rw [descOf, hw, widthOfBytes_bytes]
  exact if_pos ho

/-- A transaction of no accepted width, or beyond the offset field, has no descriptor (R61). -/
theorem desc?_of_not_fits {t : Transaction} (h : widthOfBytes t.width = none ∨ ¬ t.offset < 2 ^ 30) :
    t.desc? = none := by
  show descOf t.dir t.offset t.width = _
  rw [descOf]
  rcases h with h | h
  · rw [h]
  · cases widthOfBytes t.width with
    | none => rfl
    | some w => exact if_neg h

/-- An offset that fits the field is the field's value (R61). -/
theorem toNat_offField {o : Nat} (h : o < 2 ^ 30) : (BitVec.ofNat 30 o).toNat = o := by
  rw [BitVec.toNat_ofNat]
  exact Nat.mod_eq_of_lt h

/-- The offset field of a register's offset (R10). -/
theorem offField_eq_register {off : BitVec 30} {r : RegName} (h : off.toNat = r.offset) :
    off = BitVec.ofNat 30 r.offset := by
  rw [← h, BitVec.ofNat_toNat, BitVec.setWidth_eq]

/-- What an admitted descriptor decodes to (R64). -/
theorem decode_admitted {d : Desc} {v : Word} (h : admitted (descOff d).toNat (descWidth d).bytes = true) :
    decode d v = .ok (match descDir d with
      | .read => readInstr (decodeOffset (descOff d).toNat) (descWidth d) (descOff d)
      | .write => writeInstr (decodeOffset (descOff d).toNat) (descWidth d) (descOff d) v) := by
  rw [decode, if_pos h]
  cases descDir d <;> rfl

/-- The instruction an admitted transaction decodes to (R64). -/
theorem decode_of_admitted {t : Transaction} {w : Width} (hw : t.width = w.bytes) (h : t.admitted = true) :
    t.decode = .ok (match t.dir with
      | .read => readInstr (decodeOffset t.offset) w (BitVec.ofNat 30 t.offset)
      | .write => writeInstr (decodeOffset t.offset) w (BitVec.ofNat 30 t.offset) t.wdata) := by
  have hfit := ((admitted_iff t.offset t.width).mp h).2.2
  have hlt : t.offset < 2 ^ 30 := by
    have := windowSize_le
    have : 0 < w.bytes := by cases w <;> decide
    omega
  have h' : Sys2Proof.admitted t.offset w.bytes = true := hw ▸ h
  rw [decode_via_desc, desc?_of_fits hw hlt]
  simp only [Sys2Proof.decode, descOff_packDesc, descWidth_packDesc, descDir_packDesc, toNat_offField hlt, h', if_true]
  cases t.dir <;> rfl

/-- An admitted transaction has one of the two widths (R41). -/
theorem width_of_admitted {t : Transaction} (h : t.admitted = true) : ∃ w : Width, t.width = w.bytes := by
  rcases ((admitted_iff t.offset t.width).mp h).1 with h4 | h8
  · exact ⟨.w4, h4⟩
  · exact ⟨.w8, h8⟩

/-- A transaction that is not admitted decodes to nothing, with its own offset and width (R42, R64). -/
theorem decode_of_not_admitted {t : Transaction} (h : t.admitted = false) :
    t.decode = .error (.busReject t.offset t.width) := by
  rw [decode_via_desc]
  cases hw : widthOfBytes t.width with
  | none => rw [desc?_of_not_fits (.inl hw)]
  | some w =>
    have hwb := (widthOfBytes_eq_some_iff _ _).mp hw
    by_cases hlt : t.offset < 2 ^ 30
    · have h' : Sys2Proof.admitted t.offset w.bytes = false := hwb ▸ h
      rw [desc?_of_fits hwb hlt]
      simp only [Sys2Proof.decode, descOff_packDesc, descWidth_packDesc, toNat_offField hlt, h', hwb, Bool.false_eq_true,
        if_false]
    · rw [desc?_of_not_fits (.inr hlt)]

/-- A transaction decodes exactly where it is admitted (R64). -/
theorem decode_ok_admitted {t : Transaction} {i : Instr} (h : t.decode = .ok i) : t.admitted = true := by
  rw [← Bool.not_eq_false]
  intro hn
  rw [decode_of_not_admitted hn] at h
  cases h

/-- Masking away `SZ` keeps direction and offset: a mapped row's match (R65). -/
theorem matches_mapped_row_iff (d : Desc) (dir : Dir) (off : BitVec 30) :
    d &&& 0xBFFFFFFF#32 = packDesc dir .w4 off ↔ descDir d = dir ∧ descOff d = off := by
  have key : packDesc (descDir d) (descWidth d) (descOff d) &&& 0xBFFFFFFF#32 = packDesc (descDir d) .w4 (descOff d) := by
    have bits : ∀ i : Fin 32, (0xBFFFFFFF#32).getLsbD i.val = decide (i.val ≠ 30) := by decide
    apply BitVec.eq_of_getLsbD_eq
    intro i hi
    simp only [BitVec.getLsbD_and, getLsbD_packDesc, bits ⟨i, hi⟩]
    by_cases h30 : i < 30
    · have : i ≠ 30 := by omega
      simp [h30, this]
    · by_cases h31 : i < 31
      · have : i = 30 := by omega
        simp [this, Width.bit]
      · have : i ≠ 30 := by omega
        simp [h30, h31, this]
  rw [packDesc_fields] at key
  rw [key]
  constructor
  · intro h
    exact ⟨by simpa using congrArg descDir h, by simpa using congrArg descOff h⟩
  · rintro ⟨rfl, rfl⟩
    rfl

/-- Masking away `SZ` and `OFF` keeps the direction: an UNMAPPED row's match (R65). -/
theorem matches_unmapped_row_iff (d : Desc) (dir : Dir) :
    d &&& 0x80000000#32 = packDesc dir .w4 0#30 ↔ descDir d = dir := by
  have key : packDesc (descDir d) (descWidth d) (descOff d) &&& 0x80000000#32 = packDesc (descDir d) .w4 0#30 := by
    have bits : ∀ i : Fin 32, (0x80000000#32).getLsbD i.val = decide (i.val = 31) := by decide
    apply BitVec.eq_of_getLsbD_eq
    intro i hi
    simp only [BitVec.getLsbD_and, getLsbD_packDesc, bits ⟨i, hi⟩]
    by_cases h30 : i < 30
    · have : i ≠ 31 := by omega
      simp [h30, this]
    · by_cases h31 : i < 31
      · have : i = 30 := by omega
        simp [this, Width.bit]
      · have : i = 31 := by omega
        simp [this]
  rw [packDesc_fields] at key
  rw [key]
  constructor
  · intro h
    simpa using congrArg descDir h
  · rintro rfl
    rfl

end Sys2Proof
end

