-- ==== Sys2Proof/Laws/Engines.lean ====
section
/-! SUPPORT. The bits of the masks, of a cleaned pointer and of a signature field, and what narrow values are. -/

namespace Sys2Proof.Machine

/-- `SIG_MASK` is the bits 48..62 (R7). -/
theorem getLsbD_sigMask (i : Nat) : sigMask.getLsbD i = decide (48 ≤ i ∧ i ≤ 62) := by
  by_cases h : i < 64
  · have key : ∀ j : Fin 64, sigMask.getLsbD j.val = decide (48 ≤ j.val ∧ j.val ≤ 62) := by decide
    exact key ⟨i, h⟩
  · rw [BitVec.getLsbD_of_ge _ _ (by omega)]
    exact (decide_eq_false (by omega)).symm

/-- `CANON_MASK` is the bits 48..63 (R8). -/
theorem getLsbD_canonMask (i : Nat) : canonMask.getLsbD i = decide (48 ≤ i ∧ i ≤ 63) := by
  by_cases h : i < 64
  · have key : ∀ j : Fin 64, canonMask.getLsbD j.val = decide (48 ≤ j.val ∧ j.val ≤ 63) := by decide
    exact key ⟨i, h⟩
  · rw [BitVec.getLsbD_of_ge _ _ (by omega)]
    exact (decide_eq_false (by omega)).symm

/-- Cleaning keeps bits 63 and 47..0 and clears the rest (R82). -/
theorem getLsbD_cleaned (p : Word) (i : Nat) :
    (cleaned p).getLsbD i = (p.getLsbD i && !decide (48 ≤ i ∧ i ≤ 62)) := by
  simp only [cleaned, BitVec.getLsbD_and, BitVec.getLsbD_not, getLsbD_sigMask]
  by_cases h : i < 64
  · simp only [h, decide_true, Bool.true_and]
  · simp only [BitVec.getLsbD_of_ge p i (Nat.le_of_not_lt h), Bool.false_and]

/-- The signature field keeps bits 62..48 (R82). -/
theorem getLsbD_signature (p : Word) (i : Nat) :
    (signature p).getLsbD i = (p.getLsbD i && decide (48 ≤ i ∧ i ≤ 62)) := by
  simp [signature, getLsbD_sigMask]

/-- The low half of a value, bit by bit (R17). -/
theorem getLsbD_lowHalf (v : Word) (i : Nat) : (lowHalf v).getLsbD i = (v.getLsbD i && decide (i < 32)) := by
  simp only [lowHalf, BitVec.getLsbD_setWidth, BitVec.getLsbD_extractLsb', Nat.zero_add]
  by_cases h : i < 32
  · have : i < 64 := by omega
    simp [h, this]
  · simp [h]

/-- The low half of a value, as a number (R17). -/
theorem toNat_lowHalf (v : Word) : (lowHalf v).toNat = v.toNat % 2 ^ 32 := by
  simp only [lowHalf, BitVec.toNat_setWidth, BitVec.extractLsb'_toNat, Nat.shiftRight_zero]
  omega

end Sys2Proof.Machine
end

