-- ==== Sys2Proof/Laws/State.lean ====
section
/-! SUPPORT. What each named update does to each field, so that no proof unfolds a record update. -/

namespace Sys2Proof.Machine

variable (s : State)

@[simp] theorem State.respond_keyLo (v : Word) : (s.respond v).keyLo = s.keyLo := rfl
@[simp] theorem State.respond_keyHi (v : Word) : (s.respond v).keyHi = s.keyHi := rfl
@[simp] theorem State.respond_tweak (v : Word) : (s.respond v).tweak = s.tweak := rfl
@[simp] theorem State.respond_plaintext (v : Word) : (s.respond v).plaintext = s.plaintext := rfl
@[simp] theorem State.respond_result (v : Word) : (s.respond v).result = s.result := rfl
@[simp] theorem State.respond_rdata (v : Word) : (s.respond v).rdata = some v := rfl
@[simp] theorem State.respond_pending (v : Word) : (s.respond v).pending = s.pending := rfl
@[simp] theorem State.respond_attached (v : Word) : (s.respond v).attached = s.attached := rfl

@[simp] theorem State.acknowledge_keyLo : s.acknowledge.keyLo = s.keyLo := rfl
@[simp] theorem State.acknowledge_keyHi : s.acknowledge.keyHi = s.keyHi := rfl
@[simp] theorem State.acknowledge_tweak : s.acknowledge.tweak = s.tweak := rfl
@[simp] theorem State.acknowledge_plaintext : s.acknowledge.plaintext = s.plaintext := rfl
@[simp] theorem State.acknowledge_result : s.acknowledge.result = s.result := rfl
@[simp] theorem State.acknowledge_rdata : s.acknowledge.rdata = none := rfl
@[simp] theorem State.acknowledge_pending : s.acknowledge.pending = s.pending := rfl
@[simp] theorem State.acknowledge_attached : s.acknowledge.attached = s.attached := rfl

/-- A register reads as what was written to it. -/
@[simp] theorem State.readReg_writeReg_same (r : RegName) (v : Word) : (s.writeReg r v).readReg r = v := by
  cases r <;> rfl

/-- A write to one register leaves every other alone. -/
theorem State.readReg_writeReg_other {r q : RegName} (h : q ≠ r) (v : Word) :
    (s.writeReg r v).readReg q = s.readReg q := by
  cases r <;> cases q <;> first | rfl | exact absurd rfl h

@[simp] theorem State.writeReg_rdata (r : RegName) (v : Word) : (s.writeReg r v).rdata = s.rdata := by
  cases r <;> rfl
@[simp] theorem State.writeReg_pending (r : RegName) (v : Word) : (s.writeReg r v).pending = s.pending := by
  cases r <;> rfl
@[simp] theorem State.writeReg_attached (r : RegName) (v : Word) : (s.writeReg r v).attached = s.attached := by
  cases r <;> rfl

@[simp] theorem State.readReg_respond (v : Word) (r : RegName) : (s.respond v).readReg r = s.readReg r := by
  cases r <;> rfl
@[simp] theorem State.readReg_acknowledge (r : RegName) : s.acknowledge.readReg r = s.readReg r := by
  cases r <;> rfl

@[simp] theorem State.readReg_keyLo : s.readReg .keyLo = s.keyLo := rfl
@[simp] theorem State.readReg_keyHi : s.readReg .keyHi = s.keyHi := rfl
@[simp] theorem State.readReg_tweak : s.readReg .tweak = s.tweak := rfl
@[simp] theorem State.readReg_plaintext : s.readReg .plaintext = s.plaintext := rfl
@[simp] theorem State.readReg_result : s.readReg .result = s.result := rfl

@[simp] theorem State.writeReg_keyLo (v : Word) : s.writeReg .keyLo v = { s with keyLo := v } := rfl
@[simp] theorem State.writeReg_keyHi (v : Word) : s.writeReg .keyHi v = { s with keyHi := v } := rfl
@[simp] theorem State.writeReg_tweak (v : Word) : s.writeReg .tweak v = { s with tweak := v } := rfl
@[simp] theorem State.writeReg_plaintext (v : Word) : s.writeReg .plaintext v = { s with plaintext := v } := rfl
@[simp] theorem State.writeReg_result (v : Word) : s.writeReg .result v = { s with result := v } := rfl

@[simp] theorem State.facing_keyLo (es : List BusEvent) : (s.facing es).keyLo = s.keyLo := rfl
@[simp] theorem State.facing_keyHi (es : List BusEvent) : (s.facing es).keyHi = s.keyHi := rfl
@[simp] theorem State.facing_tweak (es : List BusEvent) : (s.facing es).tweak = s.tweak := rfl
@[simp] theorem State.facing_plaintext (es : List BusEvent) : (s.facing es).plaintext = s.plaintext := rfl
@[simp] theorem State.facing_result (es : List BusEvent) : (s.facing es).result = s.result := rfl
@[simp] theorem State.facing_rdata (es : List BusEvent) : (s.facing es).rdata = s.rdata := rfl
@[simp] theorem State.facing_pending (es : List BusEvent) : (s.facing es).pending = es := rfl
@[simp] theorem State.facing_attached (es : List BusEvent) : (s.facing es).attached = s.attached := rfl
@[simp] theorem State.facing_facing (es fs : List BusEvent) : (s.facing es).facing fs = s.facing fs := rfl
@[simp] theorem State.facing_self : s.facing s.pending = s := rfl

@[simp] theorem State.construct_keyLo : s.construct.keyLo = keyLoInit := rfl
@[simp] theorem State.construct_keyHi : s.construct.keyHi = keyHiInit := rfl
@[simp] theorem State.construct_tweak : s.construct.tweak = 0 := rfl
@[simp] theorem State.construct_plaintext : s.construct.plaintext = 0 := rfl
@[simp] theorem State.construct_result : s.construct.result = 0 := rfl
@[simp] theorem State.construct_rdata : s.construct.rdata = none := rfl
@[simp] theorem State.construct_pending : s.construct.pending = s.pending := rfl
@[simp] theorem State.construct_attached : s.construct.attached = true := rfl

@[simp] theorem State.destroy_keyLo : s.destroy.keyLo = s.keyLo := rfl
@[simp] theorem State.destroy_keyHi : s.destroy.keyHi = s.keyHi := rfl
@[simp] theorem State.destroy_tweak : s.destroy.tweak = s.tweak := rfl
@[simp] theorem State.destroy_plaintext : s.destroy.plaintext = s.plaintext := rfl
@[simp] theorem State.destroy_result : s.destroy.result = s.result := rfl
@[simp] theorem State.destroy_rdata : s.destroy.rdata = none := rfl
@[simp] theorem State.destroy_pending : s.destroy.pending = s.pending := rfl
@[simp] theorem State.destroy_attached : s.destroy.attached = false := rfl

end Sys2Proof.Machine
end

