-- ==== Sys2Proof/Laws/Ops.lean ====
section
/-! SUPPORT. Each shared operation as one update of the state: what it writes, and with it everything it leaves alone. -/

namespace Sys2Proof.Machine

variable (s : State) (w : Width) (wdata : Word)

theorem State.readTransaction_eq (r : RegName) :
    s.readTransaction r w = { s with rdata := some (readValue w (s.readReg r)) } := rfl

theorem State.storeTransaction_eq (r : RegName) :
    s.storeTransaction r w wdata = { s.writeReg r (writeValue w wdata) with rdata := none } := rfl

theorem State.drainMailbox_eq : s.drainMailbox w = { s with result := 0, rdata := some (readValue w s.result) } := rfl

theorem State.signTrigger_eq : s.signTrigger w wdata =
    { s with
      plaintext := writeValue w wdata
      result := sign (writeValue w wdata) s.tweak s.keyLo s.keyHi
      rdata := none } := rfl

theorem State.authTrigger_eq : s.authTrigger w wdata =
    { s with
      result := auth (writeValue w wdata) s.tweak s.keyLo s.keyHi
      rdata := none } := rfl

/-- Write data and read data of a width are the same function of a 64-bit value (R44, R45). -/
theorem writeValue_eq_readValue : writeValue w wdata = readValue w wdata := by
  cases w <;> rfl

/-- The number a read of that width delivers (R45). -/
theorem toNat_readValue (v : Word) : (readValue w v).toNat = narrowed w v := by
  cases w with
  | w4 =>
    simp only [readValue, lowHalf, narrowed, BitVec.toNat_setWidth, BitVec.extractLsb'_toNat, Nat.shiftRight_zero]
    have : Width.w4 ≠ Width.w8 := by decide
    simp only [this, if_false]
    omega
  | w8 => rfl

/-- No step taken. -/
@[simp] theorem run_zero : run 0 s = .next s := rfl

/-- One step, then the rest. -/
theorem run_succ (n : Nat) : run (n + 1) s =
    match step s with
    | .next t => run n t
    | .fault f => .fault f
    | .refused r => .refused r := by
  refine (Host.Core.run.eq_2 Sys2Proof.core s n).trans ?_
  show _ = match Sys2Proof.core.step s with
    | .next t => Host.Core.run Sys2Proof.core n t
    | .fault f => .fault f
    | .refused r => .refused r
  cases Sys2Proof.core.step s <;> rfl

/-- A run of one step is the step. -/
theorem run_one : run 1 s = step s := by
  rw [run_succ]
  cases step s <;> rfl

/-- A run of `n` and then `m` steps. -/
theorem run_add (n m : Nat) : run (n + m) s =
    match run n s with
    | .next t => run m t
    | .fault f => .fault f
    | .refused r => .refused r := by
  induction n generalizing s with
  | zero => rw [Nat.zero_add]; rfl
  | succ k ih =>
    rw [Nat.succ_add, run_succ, run_succ]
    cases step s with
    | next t => exact ih t
    | fault f => rfl
    | refused r => rfl

end Sys2Proof.Machine
end

