-- ==== Sys2Proof/Laws/PerInstr.lean ====
section
/-! SUPPORT. Family EncodedFields: the descriptor of an instruction has the instruction's own direction, width and offset in its fields (R61, R65). -/

namespace Sys2Proof.Laws.EncodedFields

/-- The fields of an instruction's descriptor are the instruction's. -/
def Statement (i : Instr) : Prop :=
  descDir (encode i) = i.dir ∧ descWidth (encode i) = i.width ∧ (descOff (encode i)).toNat = i.offset

theorem rdKeyLo (w : Width) : Statement (.rdKeyLo w) := by simp [Statement, encode, Instr.dir, Instr.width, Instr.offset, RegName.offset]
theorem rdKeyHi (w : Width) : Statement (.rdKeyHi w) := by simp [Statement, encode, Instr.dir, Instr.width, Instr.offset, RegName.offset]
theorem rdPlaintext (w : Width) : Statement (.rdPlaintext w) := by simp [Statement, encode, Instr.dir, Instr.width, Instr.offset, RegName.offset]
theorem rdTweak (w : Width) : Statement (.rdTweak w) := by simp [Statement, encode, Instr.dir, Instr.width, Instr.offset, RegName.offset]
theorem rdResult (w : Width) : Statement (.rdResult w) := by simp [Statement, encode, Instr.dir, Instr.width, Instr.offset, RegName.offset]
theorem rdUnmapped (w : Width) (off : BitVec 30) : Statement (.rdUnmapped w off) := by simp [Statement, encode, Instr.dir, Instr.width, Instr.offset]
theorem wrKeyLo (w : Width) (wdata : Word) : Statement (.wrKeyLo w wdata) := by simp [Statement, encode, Instr.dir, Instr.width, Instr.offset, RegName.offset]
theorem wrKeyHi (w : Width) (wdata : Word) : Statement (.wrKeyHi w wdata) := by simp [Statement, encode, Instr.dir, Instr.width, Instr.offset, RegName.offset]
theorem wrPlaintext (w : Width) (wdata : Word) : Statement (.wrPlaintext w wdata) := by simp [Statement, encode, Instr.dir, Instr.width, Instr.offset, RegName.offset]
theorem wrTweak (w : Width) (wdata : Word) : Statement (.wrTweak w wdata) := by simp [Statement, encode, Instr.dir, Instr.width, Instr.offset, RegName.offset]
theorem wrResult (w : Width) (wdata : Word) : Statement (.wrResult w wdata) := by simp [Statement, encode, Instr.dir, Instr.width, Instr.offset, RegName.offset]
theorem wrUnmapped (w : Width) (off : BitVec 30) (wdata : Word) : Statement (.wrUnmapped w off wdata) := by simp [Statement, encode, Instr.dir, Instr.width, Instr.offset]

end Sys2Proof.Laws.EncodedFields
end

