-- ==== Sys2Proof/Laws/Step.lean ====
section
/-! SUPPORT. What one step can do, said once: every proof about steps cites these and unfolds nothing. -/

namespace Sys2Proof.Machine

/-- With nothing pending a step changes nothing (R33). -/
theorem step_idle {s : State} (h : s.pending = []) : step s = .next s := by
  simp [step, busStep, h]

theorem step_construct {s : State} {rest : List BusEvent} (h : s.pending = .construct :: rest) :
    step s = .next (s.facing rest).construct := by
  simp [step, busStep, h, deliver, State.facing]

theorem step_destroy {s : State} {rest : List BusEvent} (h : s.pending = .destroy :: rest) :
    step s = .next (s.facing rest).destroy := by
  simp [step, busStep, h, deliver, State.facing]

/-- A transaction delivered to no instance is refused (R161). -/
theorem step_detached {s : State} {t : Transaction} {rest : List BusEvent} (h : s.pending = .access t :: rest)
    (ha : s.attached = false) : step s = .refused .noInstance := by
  simp [step, busStep, h, deliver, ha]

/-- A transaction that decodes runs its instruction (R100). -/
theorem step_access_ok {s : State} {t : Transaction} {rest : List BusEvent} {i : Instr}
    (h : s.pending = .access t :: rest) (ha : s.attached = true) (hd : t.decode = .ok i) :
    step s = exec i (s.facing rest) := by
  simp [step, busStep, h, deliver, ha, performAccess, hd, State.facing]

/-- A transaction that does not decode is refused by name (R143). -/
theorem step_access_error {s : State} {t : Transaction} {rest : List BusEvent} {o n : Nat}
    (h : s.pending = .access t :: rest) (ha : s.attached = true) (hd : t.decode = .error (.busReject o n)) :
    step s = .refused (.busReject o n) := by
  simp [step, busStep, h, deliver, ha, performAccess, hd]

/-- Everything a step that answers a next state can have done. -/
theorem step_cases {s t : State} (h : step s = .next t) :
    (s.pending = [] ∧ t = s) ∨
    (∃ rest, s.pending = .construct :: rest ∧ t = (s.facing rest).construct) ∨
    (∃ rest, s.pending = .destroy :: rest ∧ t = (s.facing rest).destroy) ∨
    (∃ a rest i, s.pending = .access a :: rest ∧ s.attached = true ∧ a.decode = .ok i ∧
      exec i (s.facing rest) = .next t) := by
  match hp : s.pending with
  | [] =>
    rw [step_idle hp] at h
    exact .inl ⟨rfl, (Host.Outcome.next.inj h).symm⟩
  | .construct :: rest =>
    rw [step_construct hp] at h
    exact .inr (.inl ⟨rest, rfl, (Host.Outcome.next.inj h).symm⟩)
  | .destroy :: rest =>
    rw [step_destroy hp] at h
    exact .inr (.inr (.inl ⟨rest, rfl, (Host.Outcome.next.inj h).symm⟩))
  | .access a :: rest =>
    cases ha : s.attached with
    | false =>
      rw [step_detached hp ha] at h
      cases h
    | true =>
      match hd : a.decode with
      | .ok i =>
        rw [step_access_ok hp ha hd] at h
        exact .inr (.inr (.inr ⟨a, rest, i, rfl, rfl, hd, h⟩))
      | .error (.busReject o n) =>
        rw [step_access_error hp ha hd] at h
        cases h

/-- No instruction looks at, or changes, what the bus has yet to deliver (R47, R49). -/
theorem exec_facing {i : Instr} {s t : State} (es : List BusEvent) (h : exec i s = .next t) :
    exec i (s.facing es) = .next (t.facing es) := by
  cases i <;> (cases h; rfl)

/-- An admitted transaction at the head of the pending events, as an instruction (R64, R100). -/
theorem step_accessEvent {s : State} {dir : Dir} {o : Nat} {w : Width} {x : Word} {rest : List BusEvent}
    (h : s.pending = accessEvent dir o w x :: rest) (ha : s.attached = true) (hadm : admitted o w.bytes = true) :
    step s = exec (match (generalizing := false) dir with
      | .read => readInstr (decodeOffset o) w (BitVec.ofNat 30 o)
      | .write => writeInstr (decodeOffset o) w (BitVec.ofNat 30 o) x) (s.facing rest) :=
  step_access_ok h ha (decode_of_admitted (t := ⟨dir, o, w.bytes, x⟩) rfl hadm)

end Sys2Proof.Machine
end

