-- ==== Sys2Proof/Tests/Slice0.lean ====
section
/-! SUPPORT. Tests. Expected values are the spec's: its example descriptors (R61), its vectors (95_test_vectors.md), its rule examples (R101 to R112). The witnesses at the end meet the hypotheses of the statements. -/

namespace Sys2Proof.Tests

open Sys2Proof Sys2Proof.Machine

/-! ## Well-formedness: one ill-formed term for each check -/

/-- A register lives at 0x1020, so no UNMAPPED row stands for it (R65). -/
theorem test_wf_refuses_mapped_read : (Instr.rdUnmapped .w8 0x1020#30).wf = false := by decide
theorem test_wf_refuses_mapped_write : (Instr.wrUnmapped .w4 0x8#30 5#64).wf = false := by decide
/-- V57: misaligned for width 8. -/
theorem test_wf_refuses_misaligned : (Instr.rdUnmapped .w8 0x4#30).wf = false := by decide
/-- V59: beyond the window, whatever its size. -/
theorem test_wf_refuses_outside (w : Width) (off : BitVec 30) (x : Word) (h : windowSize < off.toNat + w.bytes) :
    (Instr.wrUnmapped w off x).wf = false := by
  have : admitted off.toNat w.bytes = false := by
    rw [← Bool.not_eq_true, admitted_iff]
    omega
  simp [Instr.wf, unmappedOk, this]
theorem test_wf_accepts_upper_half : (Instr.rdUnmapped .w4 0xC#30).wf = true := by decide

/-! ## Decoding: the word of every constructor, written out from R61 and R65 -/

theorem test_decode_rdKeyLo (v : Word) : decode 0b01000000000000000000000000000000#32 v = .ok (.rdKeyLo .w8) := rfl
theorem test_decode_rdKeyHi (v : Word) : decode 0b00000000000000000000000000001000#32 v = .ok (.rdKeyHi .w4) := rfl
theorem test_decode_rdPlaintext (v : Word) : decode 0b01000000000000000001000000010000#32 v = .ok (.rdPlaintext .w8) := rfl
theorem test_decode_rdTweak (v : Word) : decode 0b00000000000000000001000000011000#32 v = .ok (.rdTweak .w4) := rfl
theorem test_decode_rdResult (v : Word) : decode 0b01000000000000000001000000100000#32 v = .ok (.rdResult .w8) := rfl
theorem test_decode_rdUnmapped (v : Word) :
    decode 0b01000000000000000000000000010000#32 v = .ok (.rdUnmapped .w8 0x10#30) := rfl
theorem test_decode_wrKeyLo (v : Word) : decode 0b11000000000000000000000000000000#32 v = .ok (.wrKeyLo .w8 v) := rfl
theorem test_decode_wrKeyHi (v : Word) : decode 0b10000000000000000000000000001000#32 v = .ok (.wrKeyHi .w4 v) := rfl
theorem test_decode_wrPlaintext (v : Word) :
    decode 0b11000000000000000001000000010000#32 v = .ok (.wrPlaintext .w8 v) := rfl
theorem test_decode_wrTweak (v : Word) : decode 0b10000000000000000001000000011000#32 v = .ok (.wrTweak .w4 v) := rfl
theorem test_decode_wrResult (v : Word) : decode 0b11000000000000000001000000100000#32 v = .ok (.wrResult .w8 v) := rfl
theorem test_decode_wrUnmapped (v : Word) :
    decode 0b10000000000000000001000000100100#32 v = .ok (.wrUnmapped .w4 0x1024#30 v) := rfl
/-- V57. -/
theorem test_decode_rejects_misaligned (v : Word) : decode 0x40000004#32 v = .error (.busReject 4 8) := rfl
/-- V56: width 2 has no descriptor. -/
theorem test_width2_has_no_descriptor : (Transaction.mk .read 0x1020 2 0#64).desc? = none := by decide
theorem test_width2_is_rejected : (Transaction.mk .read 0x1020 2 0#64).decode = .error (.busReject 0x1020 2) := rfl
/-- V59, whatever the window's size: the first 8 bytes beyond it. -/
theorem test_decode_rejects_outside (x : Word) :
    (Transaction.mk .read windowSize 8 x).decode = .error (.busReject windowSize 8) := by
  apply decode_of_not_admitted
  rw [← Bool.not_eq_true]
  show ¬ admitted windowSize 8 = true
  rw [admitted_iff]
  omega
theorem test_table_word : decodeTableWord 32 0xC0001020 = some (.wrResult .w8 0#64) := rfl

/-! ## The engines under the spec's stub ciphers (95_test_vectors.md) -/

/-- `STUB_ID`. -/
def stubId : Cipher := fun p _ _ _ _ => p

/-- `STUB_MIX`. -/
def stubMix : Cipher := fun p t kl kh r =>
  let z := p ^^^ t.rotateLeft 16 ^^^ kl ^^^ kh.rotateLeft 32 ^^^ r.setWidth 64
  let z := (z ^^^ (z >>> 30)) * 0xBF58476D1CE4E5B9#64
  let z := (z ^^^ (z >>> 27)) * 0x94D049BB133111EB#64
  z ^^^ (z >>> 31)

/-- V1 to V6. -/
theorem test_sign_stubId :
    [(0x0000000012345678#64, 0x0000000012345678#64), (0x7FFF000012345678#64, 0x0000000012345678#64),
      (0xFFFF800000001000#64, 0x8000800000001000#64), (0#64, 0#64),
      (0xFFFFFFFFFFFFFFFF#64, 0x8000FFFFFFFFFFFF#64), (0x8000000000000000#64, 0x8000000000000000#64)].all
      (fun v => signWith stubId v.1 0 0xABC#64 0xDEF#64 == v.2) = true := by decide

/-- V7 to V13. -/
theorem test_auth_stubId :
    [(0x0000000012345678#64, 0x0000000012345678#64), (0#64, 0#64), (0x0001000012345678#64, 0#64),
      (0x8000800000001000#64, 0xFFFF800000001000#64), (0x8000000000000000#64, 0xFFFF000000000000#64),
      (0x7FFF000000000000#64, 0#64), (0xFFFFFFFFFFFFFFFF#64, 0#64)].all
      (fun v => authWith stubId v.1 0 0xABC#64 0xDEF#64 == v.2) = true := by decide

/-- V40 to V44 (tweak, key_lo and key_hi each reach their own argument), and V50 under K. -/
theorem test_sign_stubMix :
    signWith stubMix 0x12345678#64 0 0xABC#64 0xDEF#64 = 0x2C0A000012345678#64 ∧
    signWith stubMix 0x12345678#64 1 0xABC#64 0xDEF#64 = 0x66D8000012345678#64 ∧
    signWith stubMix 0x12345678#64 0 0xABD#64 0xDEF#64 = 0x77F1000012345678#64 ∧
    signWith stubMix 0x12345678#64 0 0xABC#64 0xDEE#64 = 0x493A000012345678#64 ∧
    signWith stubMix 0x00007FFFDEADBEE8#64 0x0123456789ABCDEF#64 0x1111222233334444#64 0x5555666677778888#64 =
      0x20127FFFDEADBEE8#64 := by decide

/-- V45 and V51 authenticate to the kernel form; V40 with bit 48 flipped, and V45 under tweak 1, do not. -/
theorem test_auth_stubMix :
    authWith stubMix 0x8C20800000001000#64 0 0xABC#64 0xDEF#64 = 0xFFFF800000001000#64 ∧
    authWith stubMix 0xF9C88000CAFEF00D#64 0x0123456789ABCDEF#64 0x1111222233334444#64 0x5555666677778888#64 =
      0xFFFF8000CAFEF00D#64 ∧
    authWith stubMix 0x2C0B000012345678#64 0 0xABC#64 0xDEF#64 = 0 ∧
    authWith stubMix 0x8C20800000001000#64 1 0xABC#64 0xDEF#64 = 0 := by decide

/-! ## One step on a small state -/

/-- The state after construction but for telling values in PLAINTEXT and RESULT, facing one transaction. -/
def facingOne (dir : Dir) (off : Nat) (w : Width) (x : Word) : State :=
  { State.reset with
    plaintext := 0x7FFF000012345678#64
    result := 0xFFFF800000001000#64
    pending := [accessEvent dir off w x] }

/-- The same state with nothing pending: what the transaction found. -/
def found : State := (facingOne .read 0 .w8 0).facing []

/-- V20. -/
theorem test_step_rdKeyLo : step (facingOne .read 0x0 .w8 0) = .next { found with rdata := some 0xABC#64 } := rfl
/-- V21. -/
theorem test_step_rdKeyHi : step (facingOne .read 0x8 .w8 0) = .next { found with rdata := some 0xDEF#64 } := rfl
/-- V28, V29: the value as written; its low half at width 4. -/
theorem test_step_rdPlaintext8 :
    step (facingOne .read 0x1010 .w8 0) = .next { found with rdata := some 0x7FFF000012345678#64 } := rfl
theorem test_step_rdPlaintext4 :
    step (facingOne .read 0x1010 .w4 0) = .next { found with rdata := some 0x12345678#64 } := rfl
/-- R104's example. -/
theorem test_step_rdTweak : step (facingOne .read 0x1018 .w4 0) = .next { found with rdata := some 0#64 } := rfl
/-- V35: a 4-byte read gets the low half and clears all 64 bits. -/
theorem test_step_rdResult4 :
    step (facingOne .read 0x1020 .w4 0) = .next { found with result := 0#64, rdata := some 0x1000#64 } := rfl
theorem test_step_rdResult8 :
    step (facingOne .read 0x1020 .w8 0) = .next { found with result := 0#64, rdata := some 0xFFFF800000001000#64 } := rfl
/-- V25; and P3 row 7, where `result` stays. -/
theorem test_step_rdUnmapped8 :
    step (facingOne .read 0x10 .w8 0) = .next { found with rdata := some (Config.diag 0x10 .w8) } := rfl
theorem test_step_rdUnmapped4 :
    step (facingOne .read 0x1024 .w4 0) = .next { found with rdata := some (lowHalf (Config.diag 0x1024 .w4)) } := rfl
/-- P3 row 1: the upper half of the write data is not taken. -/
theorem test_step_wrKeyLo4 :
    step (facingOne .write 0x0 .w4 0xFFFFFFFFCAFEBABE#64) = .next { found with keyLo := 0xCAFEBABE#64 } := rfl
/-- V39. -/
theorem test_step_wrKeyHi4 :
    step (facingOne .write 0x8 .w4 0xFFFFFFFF87654321#64) = .next { found with keyHi := 0x87654321#64 } := rfl
theorem test_step_wrTweak8 :
    step (facingOne .write 0x1018 .w8 0x0123456789ABCDEF#64) = .next { found with tweak := 0x0123456789ABCDEF#64 } := rfl
/-- V27: stored as written; the cipher sees the cleaned value, and the default keys and tweak. -/
theorem test_step_wrPlaintext8 :
    step (facingOne .write 0x1010 .w8 0x7FFF00001234567A#64) =
      .next { found with
        plaintext := 0x7FFF00001234567A#64
        result := 0x1234567A#64 ||| (Config.encrypt 0x1234567A#64 0 0xABC#64 0xDEF#64 7 &&& 0x7FFF000000000000#64) } := rfl
/-- R109: a 4-byte write signs the zero-extended value. -/
theorem test_step_wrPlaintext4 :
    step (facingOne .write 0x1010 .w4 0xFFFFFFFF12345678#64) =
      .next { found with plaintext := 0x12345678#64, result := sign 0x12345678#64 0 0xABC#64 0xDEF#64 } := rfl
/-- R111: the written value is stored nowhere. -/
theorem test_step_wrResult8 :
    step (facingOne .write 0x1020 .w8 0x8000800000001000#64) =
      .next { found with result := auth 0x8000800000001000#64 0 0xABC#64 0xDEF#64 } := rfl
/-- V62: no trigger, no store. -/
theorem test_step_wrUnmapped : step (facingOne .write 0x1024 .w4 0xFFFFFFFF#64) = .next found := rfl
/-- V57. -/
theorem test_step_misaligned : step (facingOne .read 0x4 .w8 0) = .refused (.busReject 4 8) := rfl
/-- V56. -/
theorem test_step_width2 :
    step (State.reset.facing [.access ⟨.read, 0x1020, 2, 0⟩]) = .refused (.busReject 0x1020 2) := rfl
/-- R160: a reset that finds any state. -/
theorem test_step_construct : step (found.facing [.construct]) = .next State.reset := rfl
/-- R161: no transaction reaches a destroyed instance. -/
theorem test_step_destroyed :
    run 2 (found.facing [.destroy, accessEvent .read 0x0 .w8 0]) = .refused .noInstance := rfl
theorem test_fetch_word :
    step (State.reset.withFetchWord 32 0xC0001010) = exec (.wrPlaintext .w8 0) State.reset := rfl
/-- R68: the spec's notation for `wr.8 PLAINTEXT` and `rd.4 0xC`. -/
theorem test_assembled_lines :
    (AsmLine.wr .w8 (.reg .plaintext) 1).transaction.desc? = some 0xC0001010#32 ∧
    (AsmLine.rd .w4 (.literal 0xC)).transaction.desc? = some 0x0000000C#32 := ⟨rfl, rfl⟩
/-- R43: lane 0 is the low byte, lane 7 the high one. -/
theorem test_lanes : byteLane 0x1122334455667788#64 0 = 0x88#8 ∧ byteLane 0x1122334455667788#64 7 = 0x11#8 := by decide

/-! ## Witnesses: states and operands that meet the statements' hypotheses, clause by clause -/

theorem witness_DecodeOfEncodeIsTheInstruction : (Instr.wrUnmapped .w4 0x1024#30 9#64).wf = true := by decide
theorem witness_EncodeOfDecodeIsTheDescriptor : decode 0x40001020#32 0 = .ok (.rdResult .w8) := rfl
theorem witness_DecoderFollowsTheOpcodeMap :
    admitted (descOff 0x80001024#32).toNat (descWidth 0x80001024#32).bytes = true := by decide
theorem witness_FullDecodeOfADescriptor :
    admitted (descOff 0x40000004#32).toNat (descWidth 0x40000004#32).bytes = false ∧
    admitted (descOff 0x40001020#32).toNat (descWidth 0x40001020#32).bytes = true := by decide
/-- The largest offset that fits the field, at width 4, and a width without a descriptor. -/
theorem witness_TransactionDescriptorPacking :
    ∃ t t' : Transaction, t.width = 4 ∧ t.offset < 2 ^ 30 ∧ t.offset + 1 = 2 ^ 30 ∧ ¬ (t'.width = 4 ∨ t'.width = 8) :=
  ⟨⟨.write, 0x3FFFFFFF, 4, 0⟩, ⟨.read, 0, 2, 0⟩, by decide⟩
/-- Admitted: the last word of the least window. Not admitted: width 2; and the word just beyond the window. -/
theorem witness_AdmissionDecidesAtTheBoundary :
    ((facingOne .read 0x1024 .w4 0).attached = true ∧ 0x1024 % 4 = 0 ∧ 0x1024 + 4 ≤ windowSize) ∧
    (¬ ((2 = 4 ∨ 2 = 8) ∧ 0x1020 % 2 = 0 ∧ 0x1020 + 2 ≤ windowSize)) ∧
    (¬ ((8 = 4 ∨ 8 = 8) ∧ windowSize % 8 = 0 ∧ windowSize + 8 ≤ windowSize)) := by
  have h : minWindow ≤ windowSize := minWindow_le_windowSize
  have hm : minWindow = 0x1028 := rfl
  refine ⟨⟨rfl, rfl, by omega⟩, by omega, by omega⟩
theorem witness_StepRunsTheDecodedInstruction :
    let t : Transaction := ⟨.write, 0x1020, 4, 7#64⟩
    (State.reset.facing [.access t]).pending = .access t :: [] ∧ t.desc? = some 0x80001020#32 ∧
      decode 0x80001020#32 t.wdata = .ok (.wrResult .w4 7#64) := ⟨rfl, rfl, rfl⟩
theorem witness_AdmittedTransactionsComplete :
    (Transaction.mk .read 0x1024 4 0).admitted = true ∧ (Transaction.mk .write 0x0 8 0).admitted = true := by decide
theorem witness_StateChangesOnlyThroughTransactions :
    (∃ u, step (facingOne .read 0x1020 .w8 0) = .next u) ∧ ∃ u, step State.reset = .next u := ⟨⟨_, rfl⟩, ⟨_, rfl⟩⟩
theorem witness_ConstructionLoadsTheResetValues : (found.facing [.construct]).pending = .construct :: [] := rfl
theorem witness_DestructionEndsTheInstance :
    (∃ t more, (found.facing [.destroy, accessEvent .read 0 .w8 0]).pending = .destroy :: .access t :: more) ∧
    ∃ more, (found.facing [.destroy, .construct]).pending = .destroy :: .construct :: more := ⟨⟨_, _, rfl⟩, ⟨_, rfl⟩⟩
/-- The last unmapped word of the least window, read and written. -/
theorem witness_UnmappedOffsetsAreNotIllegal :
    (facingOne .read 0x1024 .w4 0).attached = true ∧ admitted 0x1024 Width.w4.bytes = true ∧
      ∀ r : RegName, 0x1024 ≠ r.offset := by
  refine ⟨rfl, by decide, ?_⟩
  intro r
  cases r <;> decide
theorem witness_FieldsARuleDoesNotNameAreUnchanged (i : Instr) : ∃ t, exec i found = .next t := by
  cases i <;> exact ⟨_, rfl⟩
/-- A match, kernel form; and a match of a null pointer. -/
theorem witness_CanonicalFormFollowsBit63 :
    stubId (0x8000800000001000#64 &&& 0x8000FFFFFFFFFFFF#64) 0 0 0 7#32 &&& 0x7FFF000000000000#64 =
      0x8000800000001000#64 &&& 0x7FFF000000000000#64 := by decide
theorem witness_TamperSentinelAndNull :
    stubId (0x0001000012345678#64 &&& 0x8000FFFFFFFFFFFF#64) 0 0 0 7#32 &&& 0x7FFF000000000000#64 ≠
      0x0001000012345678#64 &&& 0x7FFF000000000000#64 ∧
    stubId (0#64 &&& 0x8000FFFFFFFFFFFF#64) 0 0 0 7#32 &&& 0x7FFF000000000000#64 = 0#64 &&& 0x7FFF000000000000#64 ∧
    (0x8000800000001000#64).getLsbD 63 = true := by decide
theorem witness_SignThenAuthRoundTrip :
    (0x12345678#64 : Word).getLsbD 63 = false ∧ (0xFFFF800000001000#64 : Word).getLsbD 63 = true := by decide
/-- Bits 48 and 62, the ends of the signature field. -/
theorem witness_TamperDetection :
    (0x4001000000000000#64 : Word) ≠ 0 ∧ 0x4001000000000000#64 &&& 0x8000FFFFFFFFFFFF#64 = 0 := by decide
theorem witness_OnlySignatureBitsOfTheCipherAreObservable :
    (stubId (5#64 &&& 0x8000FFFFFFFFFFFF#64) 0 0 0 7#32).extractLsb' 48 15 =
      ((fun p _ _ _ _ => p + 1 : Cipher) (5#64 &&& 0x8000FFFFFFFFFFFF#64) 0 0 0 7#32).extractLsb' 48 15 := by decide
/-- Key and tweak writes, an unmapped access and a read of PLAINTEXT leave the mailbox alone. -/
def quietEvents : List BusEvent :=
  [accessEvent .write 0x0 .w8 1, accessEvent .write 0x1018 .w4 2, accessEvent .read 0x1024 .w4 0, accessEvent .read 0x1010 .w8 0]
theorem witness_MailboxValueIsReadExactlyOnce :
    found.attached = true ∧ quietEvents.all leavesMailbox = true ∧ deliverable true quietEvents = true := by decide
theorem witness_RegistersPersistUntilRewritten :
    quietEvents.all (leavesRegister .keyHi) = true ∧
      ([accessEvent .write 0x1010 .w8 3, accessEvent .read 0x1020 .w8 0] : List BusEvent).all (leavesRegister .tweak) = true ∧
      RegName.keyHi ≠ .result := by decide
theorem witness_LastWriteWins :
    admitted 0x1018 Width.w4.bytes = true ∧ admitted 0x1018 Width.w8.bytes = true ∧ found.attached = true := by decide
theorem witness_EverythingButTheResultReadIsIdempotent :
    ¬ (Dir.write = .read ∧ 0x1020 = 0x1020) ∧ admitted 0x1020 Width.w8.bytes = true := by decide
theorem witness_LaterEventsDoNotReachBack :
    ∃ t, run quietEvents.length (State.reset.facing quietEvents) = .next t := ⟨_, rfl⟩
theorem witness_TamperedSignatureReadsZero :
    (0x4001000000000000#64 : Word) ≠ 0 ∧ ∀ i, (i < 48 ∨ i = 63) → (0x4001000000000000#64 : Word).getLsbD i = false := by
  refine ⟨by decide, ?_⟩
  have key : ∀ j : Fin 64, (j.val < 48 ∨ j.val = 63) → (0x4001000000000000#64 : Word).getLsbD j.val = false := by decide
  intro i hi
  exact key ⟨i, by omega⟩ hi
theorem witness_PlaintextIsSeenOnlyByItsOwnReads :
    let s := State.reset.facing [accessEvent .write 0x1010 .w8 1, accessEvent .read 0x1020 .w8 0]
    s.pending.all (readsNot .plaintext) = true ∧ ∃ t, run 2 s = .next t := ⟨by decide, ⟨_, rfl⟩⟩
theorem witness_NarrowMasterViewIsInvariant :
    NarrowView (State.reset.facing [accessEvent .write 0x1010 .w4 0x12345678]) ∧
      ∃ t, step (State.reset.facing [accessEvent .write 0x1010 .w4 0x12345678]) = .next t := by
  refine ⟨⟨by decide, by decide, by decide, by decide, by decide, by decide, ?_⟩, ⟨_, rfl⟩⟩
  intro v h
  cases h
theorem witness_LateKeyWritesDoNotChangeTheResult :
    found.attached = true ∧ ((0x1010 : Nat) = 0x1010 ∨ (0x1010 : Nat) = 0x1020) ∧
      ((0x1020 : Nat) = 0x1010 ∨ (0x1020 : Nat) = 0x1020) ∧
      ((0x1018 : Nat) = 0x0 ∨ (0x1018 : Nat) = 0x8 ∨ (0x1018 : Nat) = 0x1018) := by decide
theorem witness_reset_invariants :
    ([accessEvent .write 0x1010 .w4 1, .construct] : List BusEvent).all narrowEvent = true ∧
      ([accessEvent .write 0x1010 .w8 1, .construct] : List BusEvent).all admittedEvent = true := by decide
theorem witness_SignThenAuthThroughTheMailbox : found.attached = true := rfl
/-- The last lane of each width, and the last bit of a lane. -/
theorem witness_BusBytesAreLittleEndian : 3 < Width.w4.bytes ∧ 7 < Width.w8.bytes ∧ 7 < 8 := by decide
/-- The ends of the ranges of bits the engine statements speak of. -/
theorem witness_bit_ranges : (48 : Nat) ≤ 48 ∧ (48 : Nat) ≤ 62 ∧ (62 : Nat) ≤ 62 ∧ (63 : Nat) < 64 ∧ (47 : Nat) < 48 := by decide
theorem witness_BusAddressesBecomeOffsets :
    Config.base + 0x1024 = Config.base + (Transaction.mk .read 0x1024 4 0).offset ∧ 0x1024 < windowSize := by
  have h : minWindow ≤ windowSize := minWindow_le_windowSize
  have hm : minWindow = 0x1028 := rfl
  exact ⟨rfl, by omega⟩
/-- A disciplined bus with traffic, a reset, and a teardown followed by a new instance. -/
theorem witness_DisciplinedBusIsInvariant :
    (State.reset.facing (quietEvents ++ [.destroy, .construct, accessEvent .read 0x1020 .w8 0])).disciplined = true := by
  decide
theorem witness_DisciplinedRunsNeverStop :
    (found.facing (quietEvents ++ [.construct, accessEvent .write 0x1020 .w8 5])).disciplined = true := by decide
theorem witness_DisciplineHoldsAtReset :
    ([.construct, accessEvent .read 0x1024 .w4 0] : List BusEvent).all admittedEvent = true := by decide
theorem witness_NarrowMasterViewHoldsAtReset :
    ([accessEvent .write 0x1010 .w4 1, .destroy] : List BusEvent).all narrowEvent = true := by decide
/-- Two pointers that differ in bits 48 and 62 only (law (d)). -/
theorem witness_LawsOfSign :
    (0x0000000000000005#64 : Word) ≠ 0x4001000000000005#64 ∧
      ∀ i : Fin 64, (i.val < 48 ∨ i.val = 63) → (0x0000000000000005#64 : Word).getLsbD i.val = (0x4001000000000005#64 : Word).getLsbD i.val := by
  decide
/-- Both answers of the Auth Engine occur, whatever ENCRYPT is: the signed null pointer, and it with its signature one
more. -/
theorem witness_ResultWriteAuthenticates :
    ∃ v v' : Word,
      (Config.encrypt (v &&& 0x8000FFFFFFFFFFFF#64) 0 0 0 7#32).extractLsb' 48 15 = v.extractLsb' 48 15 ∧
      (Config.encrypt (v' &&& 0x8000FFFFFFFFFFFF#64) 0 0 0 7#32).extractLsb' 48 15 ≠ v'.extractLsb' 48 15 := by
  have hc : ∀ e : BitVec 15, ((0#1 ++ e) ++ 0#48 : Word) &&& 0x8000FFFFFFFFFFFF#64 = 0 ∧
      ((0#1 ++ e) ++ 0#48 : Word).extractLsb' 48 15 = e := by
    intro e
    have h := e.isLt
    refine ⟨BitVec.eq_of_getLsbD_eq fun i hi => ?_, BitVec.eq_of_getLsbD_eq fun i hi => ?_⟩
    · have hm : (0x8000FFFFFFFFFFFF#64).getLsbD i = (0x8000FFFFFFFFFFFF#64).getLsbD (⟨i, hi⟩ : Fin 64).val := rfl
      have key : ∀ j : Fin 64, (0x8000FFFFFFFFFFFF#64).getLsbD j.val = (decide (j.val < 48) || decide (j.val = 63)) := by decide
      rw [BitVec.getLsbD_and, hm, key]
      simp only [BitVec.getLsbD_append, BitVec.getLsbD_zero]
      by_cases h1 : i < 48
      · simp [h1]
      · by_cases h2 : i = 63
        · subst h2
          simp
        · simp [h1, h2]
    · simp only [BitVec.getLsbD_extractLsb', BitVec.getLsbD_append]
      have : ¬ (48 + i < 48) := by omega
      have h3 : 48 + i - 48 = i := by omega
      simp [hi, this, h3]
  let e := (Config.encrypt 0 0 0 0 7#32).extractLsb' 48 15
  refine ⟨(0#1 ++ e) ++ 0#48, (0#1 ++ (e + 1#15)) ++ 0#48, ?_, ?_⟩
  · rw [(hc e).1, (hc e).2]
  · rw [(hc _).1, (hc _).2]
    intro h
    have h' : e = e + 1#15 := h
    have hn := congrArg BitVec.toNat h'
    have hl := e.isLt
    rw [BitVec.toNat_add] at hn
    simp only [BitVec.toNat_ofNat] at hn
    omega

end Sys2Proof.Tests
end

section
/-! PROOF. The constraints of R12 on the window's size and its split. -/

namespace Sys2Proof

/-- The registers end at a multiple of 8, and the window goes on in whole 8-byte words (R12). -/
theorem windowSize_mod_eight : windowSize % 8 = 0 := by
  have hm : minWindow % 8 = 0 := rfl
  rw [windowSize, Nat.add_mul_mod_self_left, hm]

theorem privateSize_pos : 0 < privateSize := by
  rw [privateSize]
  exact Nat.add_pos_left Nat.one_pos _

/-- The private part takes less than half of the window (R12): the slack is reduced below `(windowSize - 1) / 2`, which
is positive because the registers are inside the window. -/
theorem two_mul_privateSize_lt_windowSize : 2 * privateSize < windowSize := by
  have hw : 0x1028 ≤ windowSize := minWindow_le_windowSize
  have hslack : Config.privateSlack % ((windowSize - 1) / 2) < (windowSize - 1) / 2 :=
    Nat.mod_lt _ (by omega)
  rw [privateSize]
  omega

/-- The public part and the private part make up the window (R12). -/
theorem publicSize_add_privateSize : publicSize + privateSize = windowSize := by
  have h := two_mul_privateSize_lt_windowSize
  exact Nat.sub_add_cancel (by omega)

/-- Settles O8: the private part, not empty and less than half of the window, is what PUBLIC_SIZE leaves of it. -/
theorem windowSizesMeetTheirConstraints : Obligations.WindowSizesMeetTheirConstraints := by
  have hpos := privateSize_pos
  have hhalf := two_mul_privateSize_lt_windowSize
  have hsplit := publicSize_add_privateSize
  exact ⟨minWindow_le_windowSize, windowSize_mod_eight, windowSize_le, by omega, by omega⟩

end Sys2Proof
end

section
/-! PROOF. Facts about decoding, steps and runs that the statements on the state share: the direction and offset of a
decoded transaction, that every instruction completes, and which registers a transaction may change. -/

namespace Sys2Proof

/-- An admitted access lies within the 30-bit offset field (R12, R61). -/
theorem offset_lt_of_admitted {t : Transaction} (h : t.admitted = true) : t.offset < 2 ^ 30 := by
  obtain ⟨hwidth, -, hfit⟩ := (admitted_iff t.offset t.width).mp h
  have := windowSize_le
  omega

/-- The read row of an offset is a read at that offset (R64). -/
theorem readInstr_dir_offset {o : Nat} (w : Width) (h : o < 2 ^ 30) :
    (readInstr (decodeOffset o) w (BitVec.ofNat 30 o)).dir = .read ∧
      (readInstr (decodeOffset o) w (BitVec.ofNat 30 o)).offset = o := by
  cases hd : decodeOffset o with
  | none => exact ⟨rfl, toNat_offField h⟩
  | some r =>
    rw [(decodeOffset_eq_some_iff o r).mp hd]
    cases r <;> exact ⟨rfl, rfl⟩

/-- The write row of an offset is a write at that offset (R64). -/
theorem writeInstr_dir_offset {o : Nat} (w : Width) (x : Word) (h : o < 2 ^ 30) :
    (writeInstr (decodeOffset o) w (BitVec.ofNat 30 o) x).dir = .write ∧
      (writeInstr (decodeOffset o) w (BitVec.ofNat 30 o) x).offset = o := by
  cases hd : decodeOffset o with
  | none => exact ⟨rfl, toNat_offField h⟩
  | some r =>
    rw [(decodeOffset_eq_some_iff o r).mp hd]
    cases r <;> exact ⟨rfl, rfl⟩

/-- A transaction decodes to an instruction of its own direction and offset (R64). -/
theorem decode_ok_dir_offset {t : Transaction} {i : Instr} (h : t.decode = .ok i) :
    i.dir = t.dir ∧ i.offset = t.offset := by
  have hadm := decode_ok_admitted h
  have hlt := offset_lt_of_admitted hadm
  obtain ⟨w, hw⟩ := width_of_admitted hadm
  rw [decode_of_admitted hw hadm] at h
  cases hdir : t.dir with
  | read =>
    simp only [hdir, Except.ok.injEq] at h
    exact h ▸ readInstr_dir_offset w hlt
  | write =>
    simp only [hdir, Except.ok.injEq] at h
    exact h ▸ writeInstr_dir_offset w t.wdata hlt

/-- An admitted transaction decodes (R64). -/
theorem exists_decode_of_admitted {t : Transaction} (h : t.admitted = true) : ∃ i, t.decode = .ok i := by
  obtain ⟨w, hw⟩ := width_of_admitted h
  exact ⟨_, decode_of_admitted hw h⟩

namespace Machine

/-- No instruction stops (R140). -/
theorem exec_completes (i : Instr) (s : State) : ∃ t, exec i s = .next t := by
  cases i <;> exact ⟨_, rfl⟩

/-- No instruction changes what the bus has yet to deliver, or takes the device away (R47, R100). -/
theorem exec_pending_attached {i : Instr} {s t : State} (h : exec i s = .next t) :
    t.pending = s.pending ∧ t.attached = s.attached := by
  cases i <;> (cases h; exact ⟨rfl, rfl⟩)

/-- A step takes the next event off the list, and none where there is none (R49). -/
theorem step_pending {s t : State} (h : step s = .next t) : t.pending = s.pending.tail := by
  obtain ⟨hp, rfl⟩ | ⟨rest, hp, rfl⟩ | ⟨rest, hp, rfl⟩ | ⟨a, rest, i, hp, -, -, he⟩ := step_cases h
  · simp [hp]
  · simp [hp]
  · simp [hp]
  · simp [hp, (exec_pending_attached he).1]

/-- A completing run is a completing step and a completing run of the rest. -/
theorem run_succ_eq_next_iff {n : Nat} {s t : State} :
    run (n + 1) s = .next t ↔ ∃ u, step s = .next u ∧ run n u = .next t := by
  rw [run_succ]
  cases step s <;> simp

/-- A run goes on from where its first part ended. -/
theorem run_add_of_next {n : Nat} {s u : State} (m : Nat) (h : run n s = .next u) : run (n + m) s = run m u := by
  rw [run_add, h]

/-! ## Which registers a transaction may change -/

@[simp] theorem State.readReg_facing (s : State) (es : List BusEvent) (r : RegName) :
    (s.facing es).readReg r = s.readReg r := by
  cases r <;> rfl

@[simp] theorem State.readReg_destroy (s : State) (r : RegName) : s.destroy.readReg r = s.readReg r := by
  cases r <;> rfl

@[simp] theorem State.readReg_readTransaction (s : State) (q r : RegName) (w : Width) :
    (s.readTransaction q w).readReg r = s.readReg r :=
  s.readReg_respond _ r

theorem State.readReg_storeTransaction_other (s : State) {q r : RegName} (w : Width) (x : Word) (h : r ≠ q) :
    (s.storeTransaction q w x).readReg r = s.readReg r := by
  rw [State.storeTransaction, State.readReg_acknowledge, State.readReg_writeReg_other s h]

theorem State.readReg_drainMailbox_other (s : State) {r : RegName} (w : Width) (h : r ≠ .result) :
    (s.drainMailbox w).readReg r = s.readReg r := by
  rw [State.drainMailbox, State.readReg_respond, State.readReg_writeReg_other s h]

theorem State.readReg_signTrigger_other (s : State) {r : RegName} (w : Width) (x : Word) (hp : r ≠ .plaintext)
    (hr : r ≠ .result) : (s.signTrigger w x).readReg r = s.readReg r := by
  rw [State.signTrigger, State.readReg_acknowledge, State.readReg_writeReg_other _ hr, State.readReg_writeReg_other s hp]

theorem State.readReg_authTrigger_other (s : State) {r : RegName} (w : Width) (x : Word) (h : r ≠ .result) :
    (s.authTrigger w x).readReg r = s.readReg r := by
  rw [State.authTrigger, State.readReg_acknowledge, State.readReg_writeReg_other s h]

/-- A transaction of this direction and offset may change register `r` (R33, R113): a write at its own offset, and for
the mailbox also the destructive read there and the sign trigger. -/
def MayChange (dir : Dir) (off : Nat) (r : RegName) : Prop :=
  (dir = .write ∧ off = r.offset) ∨
    (r = .result ∧ (off = RegName.result.offset ∨ (dir = .write ∧ off = RegName.plaintext.offset)))

/-- The only register a read may change is the mailbox (R31). -/
theorem mayChange_read_iff {off : Nat} {r : RegName} :
    MayChange .read off r ↔ r = .result ∧ off = RegName.result.offset := by
  simp [MayChange]

/-- A transaction that may change anything is at a register's offset (R113). -/
theorem MayChange.exists_offset {dir : Dir} {off : Nat} {r : RegName} (h : MayChange dir off r) :
    ∃ q : RegName, off = q.offset := by
  obtain ⟨-, h⟩ | ⟨-, h | ⟨-, h⟩⟩ := h
  · exact ⟨r, h⟩
  · exact ⟨.result, h⟩
  · exact ⟨.plaintext, h⟩

theorem mayChange_of_ne_result {dir : Dir} {off : Nat} {r : RegName} (hr : r ≠ .result) :
    MayChange dir off r ↔ dir = .write ∧ off = r.offset := by
  simp [MayChange, hr]

/-- The frame of all twelve instructions: a register the instruction may not change reads as before. -/
theorem exec_keeps_register {i : Instr} {s t : State} {r : RegName} (h : exec i s = .next t)
    (hk : ¬ MayChange i.dir i.offset r) : t.readReg r = s.readReg r := by
  have own : ∀ q : RegName, i.dir = .write → i.offset = q.offset → r ≠ q := by
    rintro q hdir hoff rfl
    exact hk (.inl ⟨hdir, hoff⟩)
  cases i with
  | rdKeyLo w | rdKeyHi w | rdPlaintext w | rdTweak w =>
    cases h
    exact s.readReg_readTransaction _ r w
  | rdResult w =>
    cases h
    exact s.readReg_drainMailbox_other w fun hr => hk (.inr ⟨hr, .inl rfl⟩)
  | rdUnmapped w off =>
    cases h
    exact s.readReg_respond _ r
  | wrKeyLo w x | wrKeyHi w x | wrTweak w x =>
    cases h
    exact s.readReg_storeTransaction_other w x (own _ rfl rfl)
  | wrPlaintext w x =>
    cases h
    exact s.readReg_signTrigger_other w x (own _ rfl rfl) fun hr => hk (.inr ⟨hr, .inr ⟨rfl, rfl⟩⟩)
  | wrResult w x =>
    cases h
    exact s.readReg_authTrigger_other w x (own _ rfl rfl)
  | wrUnmapped w off x =>
    cases h
    exact s.readReg_acknowledge r

/-- The same of a transaction, through its decoding. -/
theorem access_keeps_register {a : Transaction} {i : Instr} {s t : State} {r : RegName} (hd : a.decode = .ok i)
    (h : exec i s = .next t) (hk : ¬ MayChange a.dir a.offset r) : t.readReg r = s.readReg r := by
  obtain ⟨hdir, hoff⟩ := decode_ok_dir_offset hd
  rw [← hdir, ← hoff] at hk
  exact exec_keeps_register h hk

/-- The event is a transaction that may not change register `r`. -/
def SparesRegister (r : RegName) (e : BusEvent) : Prop := ∃ a, e = .access a ∧ ¬ MayChange a.dir a.offset r

theorem sparesRegister_of_leavesRegister {r : RegName} (hr : r ≠ .result) {e : BusEvent}
    (h : leavesRegister r e = true) : SparesRegister r e := by
  cases e with
  | access a => exact ⟨a, rfl, by simpa [mayChange_of_ne_result hr, leavesRegister, imp_iff_not_or] using h⟩
  | construct => cases h
  | destroy => cases h

theorem sparesRegister_of_leavesMailbox {e : BusEvent} (h : leavesMailbox e = true) : SparesRegister .result e := by
  cases e with
  | access a =>
    obtain ⟨hoff, hsign⟩ : a.offset ≠ 0x1020 ∧ ¬ (a.dir = .write ∧ a.offset = 0x1010) := by
      simpa [leavesMailbox, imp_iff_not_or] using h
    refine ⟨a, rfl, ?_⟩
    rintro (⟨-, h⟩ | ⟨-, h | h⟩)
    · exact hoff h
    · exact hoff h
    · exact hsign h
  | construct => cases h
  | destroy => cases h

/-- The induction over a list of deliverable transactions, packaged: where none may change register `r`, all are
delivered, the register reads as before, and the device goes on with what comes after them. -/
theorem run_keeps_spared_register {r : RegName} {es rest : List BusEvent} {s : State} (ha : s.attached = true)
    (hp : s.pending = es ++ rest) (hspare : ∀ e ∈ es, SparesRegister r e) (hdel : deliverable true es = true) :
    ∃ t, run es.length s = .next t ∧ t.readReg r = s.readReg r ∧ t.pending = rest ∧ t.attached = true := by
  induction es generalizing s with
  | nil => exact ⟨s, rfl, rfl, hp, ha⟩
  | cons e es ih =>
    obtain ⟨⟨a, rfl, hk⟩, hspare'⟩ := List.forall_mem_cons.mp hspare
    obtain ⟨hadm, hdel'⟩ : a.admitted = true ∧ deliverable true es = true := by simpa [deliverable] using hdel
    obtain ⟨i, hd⟩ := exists_decode_of_admitted hadm
    obtain ⟨u, hu⟩ := exec_completes i (s.facing (es ++ rest))
    obtain ⟨hup, hua⟩ := exec_pending_attached hu
    have hstep : step s = .next u := (step_access_ok hp ha hd).trans hu
    obtain ⟨t, hrun, ht, htp, hta⟩ := ih (hua.trans ha) hup hspare' hdel'
    have hkeep : u.readReg r = s.readReg r := (access_keeps_register hd hu hk).trans (s.readReg_facing _ r)
    exact ⟨t, run_succ_eq_next_iff.mpr ⟨u, hstep, hrun⟩, ht.trans hkeep, htp, hta⟩

end Machine

end Sys2Proof
end

section
/-! PROOF. The mailbox is one-shot (R31). -/

namespace Sys2Proof.Machine

/-- A 0 is read as 0 at either width (R45). -/
@[simp] theorem readValue_zero (w : Width) : readValue w 0 = 0 := by
  cases w <;> rfl

/-- The step of a read at RESULT drains the mailbox (R105). -/
theorem step_readResult {s : State} {w : Width} {x : Word} {rest : List BusEvent}
    (hp : s.pending = accessEvent .read 0x1020 w x :: rest) (ha : s.attached = true) :
    step s = .next ((s.facing rest).drainMailbox w) :=
  step_accessEvent hp ha (admitted_register .result w)

/-- The step of a write at PLAINTEXT is the sign trigger (R109). -/
theorem step_writePlaintext {s : State} {w : Width} {x : Word} {rest : List BusEvent}
    (hp : s.pending = accessEvent .write 0x1010 w x :: rest) (ha : s.attached = true) :
    step s = .next ((s.facing rest).signTrigger w x) :=
  step_accessEvent hp ha (admitted_register .plaintext w)

/-- The step of a write at RESULT is the auth trigger (R111). -/
theorem step_writeResult {s : State} {w : Width} {x : Word} {rest : List BusEvent}
    (hp : s.pending = accessEvent .write 0x1020 w x :: rest) (ha : s.attached = true) :
    step s = .next ((s.facing rest).authTrigger w x) :=
  step_accessEvent hp ha (admitted_register .result w)

/-- A trigger completes in one and the same state whatever the mailbox held: it overwrites the old value and no engine
reads it (R31, R81). -/
theorem step_trigger_overwrites_result {s : State} {off : Nat} (w : Width) (x : Word) (rest : List BusEvent)
    (ha : s.attached = true) (hoff : off = 0x1010 ∨ off = 0x1020) :
    ∃ a, a.pending = rest ∧ a.attached = true ∧
      ∀ old : Word, step ({ s with result := old }.facing (accessEvent .write off w x :: rest)) = .next a := by
  obtain rfl | rfl := hoff
  · exact ⟨(s.facing rest).signTrigger w x, rfl, ha, fun old => step_writePlaintext rfl ha⟩
  · exact ⟨(s.facing rest).authTrigger w x, rfl, ha, fun old => step_writeResult rfl ha⟩

/-- A read at RESULT after transactions that leave the mailbox alone returns what the mailbox held before them, and
leaves it empty (R31, R105). -/
theorem run_quiet_then_readResult {es rest : List BusEvent} {s : State} {w : Width} {x : Word} (ha : s.attached = true)
    (hp : s.pending = es ++ accessEvent .read 0x1020 w x :: rest) (hquiet : es.all leavesMailbox = true)
    (hdel : deliverable true es = true) :
    ∃ b, run (es.length + 1) s = .next b ∧ b.rdata = some (readValue w s.result) ∧ b.result = 0 ∧ b.pending = rest ∧
      b.attached = true := by
  have hspare : ∀ e ∈ es, SparesRegister .result e := fun e he =>
    sparesRegister_of_leavesMailbox (List.all_eq_true.mp hquiet e he)
  obtain ⟨t, hrun, hres, htp, hta⟩ := run_keeps_spared_register ha hp hspare hdel
  have hread : run (es.length + 1) s = .next ((t.facing rest).drainMailbox w) := by
    rw [run_add_of_next 1 hrun, run_one, step_readResult htp hta]
  exact ⟨_, hread, congrArg (fun v => some (readValue w v)) hres, rfl, rfl, hta⟩

/-- Settles O37: the trigger overwrites the mailbox, the first read returns what the trigger left there and empties it,
and the second read finds the 0 of the first. -/
theorem mailboxValueIsReadExactlyOnce : Obligations.MailboxValueIsReadExactlyOnce := by
  intro s off w w1 w2 x es1 es2 rest ha hoff hquiet1 hquiet2 hdel1 hdel2
  obtain ⟨a, hap, haa, htrigger⟩ := step_trigger_overwrites_result w x
    (es1 ++ accessEvent .read 0x1020 w1 0 :: (es2 ++ accessEvent .read 0x1020 w2 0 :: rest)) ha hoff
  obtain ⟨b, hrunb, hbdata, hb0, hbp, hba⟩ := run_quiet_then_readResult haa hap hquiet1 hdel1
  obtain ⟨c, hrunc, hcdata, -, hcp, -⟩ := run_quiet_then_readResult hba hbp hquiet2 hdel2
  rw [hb0, readValue_zero] at hcdata
  exact ⟨a, b, c, htrigger, hrunb, ⟨_, hbdata, toNat_readValue w1 a.result⟩, hb0, hrunc, hcdata, hcp⟩

end Sys2Proof.Machine
end

section
/-! PROOF. What changes the registers: their persistence (R30), the only events that change them (R33), and the values
of construction (R36). -/

namespace Sys2Proof.Machine

/-- Settles O38: for a register other than the mailbox a transaction that is no write at its offset may not change it,
and the packaged induction runs through the list. -/
theorem registersPersistUntilRewritten : Obligations.RegistersPersistUntilRewritten := by
  intro r s es rest hr ha hleaves hdel
  have hspare : ∀ e ∈ es, SparesRegister r e := fun e he =>
    sparesRegister_of_leavesRegister hr (List.all_eq_true.mp hleaves e he)
  obtain ⟨t, hrun, hkeep, htp, -⟩ := run_keeps_spared_register (s := s.facing (es ++ rest)) ha rfl hspare hdel
  exact ⟨t, hrun, hkeep.trans (s.readReg_facing _ r), htp⟩

/-- What a transaction does to the registers: nothing, or it is a write at a register's offset, or the destructive read,
which spares all but the mailbox (R33). -/
theorem access_register_cases {a : Transaction} {i : Instr} {s t : State} (hd : a.decode = .ok i)
    (h : exec i s = .next t) :
    (∀ r, t.readReg r = s.readReg r) ∨ (a.dir = .write ∧ ∃ r : RegName, a.offset = r.offset) ∨
      (a.dir = .read ∧ a.offset = 0x1020 ∧ ∀ r, r ≠ .result → t.readReg r = s.readReg r) := by
  by_cases hany : ∃ r, MayChange a.dir a.offset r
  · obtain ⟨r, hr⟩ := hany
    cases hdir : a.dir with
    | write => exact .inr (.inl ⟨rfl, hr.exists_offset⟩)
    | read =>
      rw [hdir] at hr
      refine .inr (.inr ⟨rfl, (mayChange_read_iff.mp hr).2, fun q hq => access_keeps_register hd h ?_⟩)
      rw [hdir, mayChange_read_iff]
      exact fun hc => hq hc.1
  · exact .inl fun r => access_keeps_register hd h fun hr => hany ⟨r, hr⟩

/-- Settles O13, event by event: an idle step and a teardown change no register, a construction event is named, and a
transaction does what `access_register_cases` says. -/
theorem stateChangesOnlyThroughTransactions : Obligations.StateChangesOnlyThroughTransactions := by
  intro s u h
  obtain ⟨hp, rfl⟩ | ⟨rest, hp, -⟩ | ⟨rest, hp, rfl⟩ | ⟨a, rest, i, hp, -, hd, he⟩ := step_cases h
  · exact ⟨fun _ => rfl, .inl fun _ => rfl⟩
  · exact ⟨by simp [hp], .inr (.inl ⟨rest, hp⟩)⟩
  · exact ⟨by simp [hp], .inl fun r => by simp⟩
  · refine ⟨by simp [hp], ?_⟩
    have hcases := access_register_cases hd he
    simp only [State.readReg_facing] at hcases
    obtain hsame | hchange := hcases
    · exact .inl hsame
    · exact .inr (.inr ⟨a, rest, hp, hchange⟩)

/-- Construction leaves in each register what reset has there (R36, R160). -/
@[simp] theorem State.readReg_construct (s : State) (r : RegName) : s.construct.readReg r = State.reset.readReg r := by
  cases r <;> rfl

/-- Settles O14: the step of a construction event is the construction, whose fields are those of reset. -/
theorem constructionLoadsTheResetValues : Obligations.ConstructionLoadsTheResetValues := by
  intro s rest hp
  exact ⟨(s.facing rest).construct, step_construct hp, rfl, rfl, ⟨rfl, rfl, rfl, rfl, rfl⟩,
    fun r => ((s.facing rest).readReg_construct r).symm⟩

end Sys2Proof.Machine
end

section
/-! PROOF. The plaintext register influences nothing but the reads at PLAINTEXT (R24, R81). -/

namespace Sys2Proof.Machine

/-- An instruction that is no read at PLAINTEXT does the same, but for that register, whatever the register holds: the
only other one that names it, the sign trigger, writes it before its engine reads it (R81, R109). -/
theorem exec_plaintext_irrelevant {i : Instr} {s t : State} (p : Word) (h : exec i s = .next t)
    (hi : ¬ (i.dir = .read ∧ i.offset = RegName.plaintext.offset)) :
    ∃ q, exec i { s with plaintext := p } = .next { t with plaintext := q } := by
  cases i with
  | rdPlaintext w => exact absurd ⟨rfl, rfl⟩ hi
  | wrPlaintext w x =>
    cases h
    exact ⟨writeValue w x, rfl⟩
  | rdKeyLo | rdKeyHi | rdTweak | rdResult | rdUnmapped | wrKeyLo | wrKeyHi | wrTweak | wrResult | wrUnmapped =>
    cases h
    exact ⟨p, rfl⟩

/-- The step of any event but a read at PLAINTEXT does the same, but for that register, whatever the register holds. -/
theorem step_plaintext_irrelevant {s t : State} (p : Word) (hq : s.pending.all (readsNot .plaintext) = true)
    (h : step s = .next t) : ∃ q, step { s with plaintext := p } = .next { t with plaintext := q } := by
  obtain ⟨hp, rfl⟩ | ⟨rest, hp, rfl⟩ | ⟨rest, hp, rfl⟩ | ⟨a, rest, i, hp, ha, hd, he⟩ := step_cases h
  · exact ⟨p, step_idle hp⟩
  · exact ⟨0, step_construct hp⟩
  · exact ⟨p, step_destroy hp⟩
  · obtain ⟨hdir, hoff⟩ := decode_ok_dir_offset hd
    have hread : ¬ (i.dir = .read ∧ i.offset = RegName.plaintext.offset) := by
      have := List.all_eq_true.mp hq (.access a) (by simp [hp])
      simpa [readsNot, hdir, hoff, imp_iff_not_or] using this
    obtain ⟨q, hexec⟩ := exec_plaintext_irrelevant p he hread
    exact ⟨q, (step_access_ok (s := { s with plaintext := p }) hp ha hd).trans hexec⟩

/-- Settles O46, by induction on the number of steps: each step keeps the two runs equal but for the register, and leaves
fewer events to deliver, none of them a read at PLAINTEXT. -/
theorem plaintextIsSeenOnlyByItsOwnReads : Obligations.PlaintextIsSeenOnlyByItsOwnReads := by
  intro n
  induction n with
  | zero =>
    intro s t p _ h
    cases h
    exact ⟨p, rfl⟩
  | succ n ih =>
    intro s t p hq h
    obtain ⟨u, hstep, hrun⟩ := run_succ_eq_next_iff.mp h
    obtain ⟨p', hstep'⟩ := step_plaintext_irrelevant p hq hstep
    have hqu : u.pending.all (readsNot .plaintext) = true := by
      rw [step_pending hstep, List.all_eq_true]
      exact fun e he => List.all_eq_true.mp hq e (List.mem_of_mem_tail he)
    obtain ⟨q, hrun'⟩ := ih u t p' hqu hrun
    exact ⟨q, run_succ_eq_next_iff.mpr ⟨_, hstep', hrun'⟩⟩

end Sys2Proof.Machine
end

section
/-! PROOF. What the bus delivers later does not reach back (R49, R165). -/

namespace Sys2Proof.Machine

/-- The step that delivers an event does not look at what comes after it: that stays pending, whatever it is (R49). -/
theorem step_ignores_later_events {e : BusEvent} {es : List BusEvent} {s t : State} (fs : List BusEvent)
    (h : step (s.facing (e :: es)) = .next t) : step (s.facing (e :: fs)) = .next (t.facing fs) := by
  obtain ⟨hp, -⟩ | ⟨rest, hp, rfl⟩ | ⟨rest, hp, rfl⟩ | ⟨a, rest, i, hp, ha, hd, he⟩ := step_cases h
  · cases hp
  · cases hp
    exact step_construct rfl
  · cases hp
    exact step_destroy rfl
  · cases hp
    have hexec : exec i (s.facing fs) = .next (t.facing fs) := exec_facing (s := s.facing es) fs he
    exact (step_access_ok (s := s.facing (.access a :: fs)) rfl ha hd).trans hexec

/-- Settles O41, by induction on the events: the first step is the same with more events behind it, and it leaves the
device facing the rest of the list. -/
theorem laterEventsDoNotReachBack : Obligations.LaterEventsDoNotReachBack := by
  intro s t es rest h
  induction es generalizing s with
  | nil =>
    cases h
    rfl
  | cons e es ih =>
    obtain ⟨u, hstep, hrun⟩ := run_succ_eq_next_iff.mp h
    have hu : u = u.facing es := congrArg u.facing (step_pending hstep)
    rw [hu] at hrun
    exact run_succ_eq_next_iff.mpr ⟨_, step_ignores_later_events (es ++ rest) hstep, ih u hrun⟩

end Sys2Proof.Machine
end

section
/-! PROOF. Admission decides at the boundary (R42), and a bus that delivers only what is admitted is never refused
(R140, R161). -/

namespace Sys2Proof.Machine

/-- Settles O9: an admitted transaction decodes and its step is the instruction; one that is not decodes to BusReject,
and so is refused. -/
theorem admissionDecidesAtTheBoundary : Obligations.AdmissionDecidesAtTheBoundary := by
  intro s t rest ha hp
  rw [← admitted_iff]
  constructor
  · intro hadm
    obtain ⟨i, hd⟩ := exists_decode_of_admitted hadm
    exact ⟨i, hd, step_access_ok hp ha hd⟩
  · intro hrej
    exact step_access_error hp ha (decode_of_not_admitted (Bool.eq_false_iff.mpr hrej))

/-- A transaction is deliverable where a device exists and it is admitted (R42, R161). -/
theorem deliverable_access_iff {alive : Bool} {a : Transaction} {rest : List BusEvent} :
    deliverable alive (.access a :: rest) = true ↔
      alive = true ∧ a.admitted = true ∧ deliverable alive rest = true := by
  simp [deliverable, and_assoc]

/-- Settles O49, by the next event: a construction or a teardown attaches or detaches the device as
`deliverable` supposes, and an admitted transaction completes and leaves it. -/
theorem disciplinedBusIsInvariant : Obligations.DisciplinedBusIsInvariant := by
  intro s hs
  have hdel : deliverable s.attached s.pending = true := hs
  match hp : s.pending with
  | [] => exact ⟨s, step_idle hp, hs⟩
  | .construct :: rest =>
    rw [hp] at hdel
    exact ⟨_, step_construct hp, hdel⟩
  | .destroy :: rest =>
    rw [hp] at hdel
    exact ⟨_, step_destroy hp, hdel⟩
  | .access a :: rest =>
    rw [hp, deliverable_access_iff] at hdel
    obtain ⟨ha, hadm, hrest⟩ := hdel
    obtain ⟨i, hd⟩ := exists_decode_of_admitted hadm
    obtain ⟨t, ht⟩ := exec_completes i (s.facing rest)
    obtain ⟨htp, hta⟩ := exec_pending_attached ht
    have hdisc : deliverable t.attached t.pending = true := by rwa [htp, hta]
    exact ⟨t, (step_access_ok hp ha hd).trans ht, hdisc⟩

/-- Admitted transactions and resets are deliverable to an attached device: none of them takes it away. -/
theorem deliverable_of_all_admittedEvent {es : List BusEvent} (h : es.all admittedEvent = true) :
    deliverable true es = true := by
  induction es with
  | nil => rfl
  | cons e es ih =>
    obtain ⟨he, hes⟩ : admittedEvent e = true ∧ es.all admittedEvent = true := by simpa using h
    cases e with
    | access a => exact deliverable_access_iff.mpr ⟨rfl, he, ih hes⟩
    | construct => exact ih hes
    | destroy => cases he

/-- Settles O50: the device is attached after reset, where nothing is pending. -/
theorem disciplineHoldsAtReset : Obligations.DisciplineHoldsAtReset :=
  ⟨rfl, fun _ h => deliverable_of_all_admittedEvent h⟩

end Sys2Proof.Machine
end

section
/-! PROOF. The byte lanes of the bus (R43). -/

namespace Sys2Proof.Machine

/-- Bit `j` of lane `k` is bit `8k + j` of the value (R43). -/
theorem getLsbD_byteLane (v : Word) (k : Nat) {j : Nat} (hj : j < 8) :
    (byteLane v k).getLsbD j = v.getLsbD (8 * k + j) := by
  simp [byteLane, hj]

/-- The lanes above the first are the lanes of the value without its low byte. -/
theorem byteLane_succ (v : Word) (k : Nat) : byteLane v (k + 1) = byteLane (v >>> 8) k := by
  apply BitVec.eq_of_getLsbD_eq
  intro j hj
  rw [getLsbD_byteLane v _ hj, getLsbD_byteLane _ k hj, BitVec.getLsbD_ushiftRight]
  congr 1
  omega

/-- The first `n` lanes carry the first `8n` bits of the value (R43), by induction on `n`: below the first lane's bits
stand those of the value shifted down by a byte. -/
theorem getLsbD_valueOfBytes_lanes (n : Nat) (v : Word) {i : Nat} (hi : i < 64) :
    (valueOfBytes ((List.range n).map (byteLane v))).getLsbD i = (v.getLsbD i && decide (i < 8 * n)) := by
  induction n generalizing v i with
  | zero => simp [valueOfBytes]
  | succ n ih =>
    have hlanes : (List.range (n + 1)).map (byteLane v) =
        byteLane v 0 :: (List.range n).map (byteLane (v >>> 8)) := by
      simp [List.range_succ_eq_map, Function.comp_def, byteLane_succ]
    rw [hlanes, valueOfBytes, BitVec.getLsbD_or, BitVec.getLsbD_setWidth, BitVec.getLsbD_shiftLeft]
    by_cases h8 : i < 8
    · have hn : i < 8 * (n + 1) := by omega
      rw [getLsbD_byteLane v 0 h8]
      simp [h8, hi, hn]
    · have hbit : 8 + (i - 8) = i := by omega
      have hn : i - 8 < 8 * n ↔ i < 8 * (n + 1) := by omega
      rw [ih (v >>> 8) (by omega), BitVec.getLsbD_ushiftRight, hbit,
        BitVec.getLsbD_of_ge (byteLane v 0) i (by omega)]
      simp [h8, hi, hn]

/-- The bytes of an access, put together, are the value that an access of the width carries (R43, R45). -/
theorem valueOfBytes_busBytes (w : Width) (o : Nat) (v : Word) :
    valueOfBytes ((busBytes w o v).map Prod.snd) = readValue w v := by
  have hlanes : (busBytes w o v).map Prod.snd = (List.range w.bytes).map (byteLane v) := by
    simp [busBytes, Function.comp_def]
  rw [hlanes]
  apply BitVec.eq_of_getLsbD_eq
  intro i hi
  rw [getLsbD_valueOfBytes_lanes _ v hi]
  cases w with
  | w4 => exact (getLsbD_lowHalf v i).symm
  | w8 => simp [readValue, Width.bytes, hi]

/-- Settles O17: the bytes are the lanes, in order, and `valueOfBytes_busBytes` puts them together. -/
theorem busBytesAreLittleEndian : Obligations.BusBytesAreLittleEndian := by
  intro w o v
  refine ⟨by simp [busBytes], ?_, ?_⟩
  · intro k hk
    exact ⟨byteLane v k, by simp [busBytes, hk], fun j hj => getLsbD_byteLane v k hj⟩
  · rw [valueOfBytes_busBytes, toNat_readValue]

end Sys2Proof.Machine
end

section
/-! PROOF. Transactions done twice: the last write wins (R50), and all but the read at RESULT are idempotent (R46). -/

namespace Sys2Proof.Machine

/-- A run of one transaction that decodes is its instruction. -/
theorem run_one_access {s : State} {a : Transaction} {i : Instr} {rest : List BusEvent} (ha : s.attached = true)
    (hi : a.decode = .ok i) : run 1 (s.facing (.access a :: rest)) = exec i (s.facing rest) := by
  rw [run_one]
  exact step_access_ok rfl ha hi

/-- A run of two transactions that decode is their instructions, one after the other. -/
theorem run_two_accesses {s : State} {a b : Transaction} {i j : Instr} {rest : List BusEvent} (ha : s.attached = true)
    (hi : a.decode = .ok i) (hj : b.decode = .ok j) :
    ∃ u, exec i (s.facing rest) = .next u ∧ run 2 (s.facing (.access a :: .access b :: rest)) = exec j u := by
  obtain ⟨u, hu⟩ := exec_completes i (s.facing (.access b :: rest))
  obtain ⟨hup, hua⟩ := exec_pending_attached hu
  refine ⟨u.facing rest, exec_facing (s := s.facing (.access b :: rest)) rest hu, ?_⟩
  calc run 2 (s.facing (.access a :: .access b :: rest))
      = run 1 u := run_add_of_next 1 ((run_one_access ha hi).trans hu)
    _ = step u := run_one u
    _ = exec j (u.facing rest) := step_access_ok hup (hua.trans ha) hj

/-- A write leaves no trace of an earlier write in the same row: what the earlier one stored, and the result it triggered,
are overwritten (R50). -/
theorem exec_write_overwrites {r : Option RegName} {w : Width} {off : BitVec 30} {x : Word} {s t : State} (w' : Width)
    (x' : Word) (h : exec (writeInstr r w off x) s = .next t) :
    exec (writeInstr r w' off x') t = exec (writeInstr r w' off x') s := by
  cases r with
  | none =>
    cases h
    rfl
  | some r => cases r <;> (cases h; rfl)

/-- What a trigger leaves in the mailbox: the Sign Engine's output at PLAINTEXT, the Auth Engine's at RESULT
(R109, R111). -/
def triggerOutput (off : Nat) (p tweak keyLo keyHi : Word) : Word :=
  if off = 0x1010 then sign p tweak keyLo keyHi else auth p tweak keyLo keyHi

/-- A trigger completes, leaves its engine's output under the stored tweak and keys, and keeps tweak and keys
(R109, R111, R113). -/
theorem step_trigger {s : State} {off : Nat} (w : Width) (x : Word) {rest : List BusEvent}
    (hp : s.pending = accessEvent .write off w x :: rest) (ha : s.attached = true) (hoff : off = 0x1010 ∨ off = 0x1020) :
    ∃ t, step s = .next t ∧ t.pending = rest ∧ t.attached = true ∧
      t.result = triggerOutput off (writeValue w x) s.tweak s.keyLo s.keyHi ∧
      t.tweak = s.tweak ∧ t.keyLo = s.keyLo ∧ t.keyHi = s.keyHi := by
  obtain rfl | rfl := hoff
  · exact ⟨_, step_writePlaintext hp ha, rfl, ha, rfl, rfl, rfl, rfl⟩
  · exact ⟨_, step_writeResult hp ha, rfl, ha, rfl, rfl, rfl, rfl⟩

/-- Settles O39: of two writes in one row the second overwrites all the first did; and a trigger keeps the tweak and keys
under which the next one's engine works, so that the result of the next is the same without it. -/
theorem lastWriteWins : Obligations.LastWriteWins := by
  intro s o o' w w' x x' rest ha
  constructor
  · intro hadm hadm'
    have hfirst := decode_of_admitted (t := ⟨.write, o, w.bytes, x⟩) rfl hadm
    have hsecond := decode_of_admitted (t := ⟨.write, o, w'.bytes, x'⟩) rfl hadm'
    obtain ⟨u, hu, hrun⟩ := run_two_accesses (rest := rest) ha hfirst hsecond
    calc run 2 (s.facing (accessEvent .write o w x :: accessEvent .write o w' x' :: rest))
        = exec (writeInstr (decodeOffset o) w' (BitVec.ofNat 30 o) x') u := hrun
      _ = exec (writeInstr (decodeOffset o) w' (BitVec.ofNat 30 o) x') (s.facing rest) := exec_write_overwrites w' x' hu
      _ = run 1 (s.facing (accessEvent .write o w' x' :: rest)) := (run_one_access ha hsecond).symm
  · intro ho ho'
    obtain ⟨a, hstepa, hap, haa, -, htweak, hlo, hhi⟩ := step_trigger
      (s := s.facing (accessEvent .write o w x :: accessEvent .write o' w' x' :: rest)) w x rfl ha ho
    obtain ⟨t, hstept, -, -, ht, -⟩ := step_trigger w' x' hap haa ho'
    obtain ⟨u, hstepu, -, -, hu, -⟩ := step_trigger
      (s := s.facing (accessEvent .write o' w' x' :: rest)) w' x' rfl ha ho'
    refine ⟨t, u, run_succ_eq_next_iff.mpr ⟨a, hstepa, (run_one a).trans hstept⟩, (run_one _).trans hstepu, ?_⟩
    rw [ht, hu, htweak, hlo, hhi]
    rfl

/-- An instruction that is no read at RESULT, done again, changes nothing more: a store stores the same value, a trigger
computes from the same value, tweak and keys, and any other read changes no register (R46). -/
theorem exec_idempotent {i : Instr} {s t : State} (h : exec i s = .next t)
    (hi : ¬ (i.dir = .read ∧ i.offset = RegName.result.offset)) : exec i t = .next t := by
  cases i with
  | rdResult w => exact absurd ⟨rfl, rfl⟩ hi
  | rdKeyLo | rdKeyHi | rdPlaintext | rdTweak | rdUnmapped | wrKeyLo | wrKeyHi | wrPlaintext | wrTweak | wrResult
  | wrUnmapped =>
    cases h
    rfl

/-- Settles O40: any other transaction runs an idempotent instruction; of two reads at RESULT the first empties the
mailbox. -/
theorem everythingButTheResultReadIsIdempotent : Obligations.EverythingButTheResultReadIsIdempotent := by
  intro s dir o w x rest ha hadm
  constructor
  · intro hne
    obtain ⟨i, hd⟩ := exists_decode_of_admitted (t := ⟨dir, o, w.bytes, x⟩) hadm
    obtain ⟨hdir, hoff⟩ := decode_ok_dir_offset hd
    obtain ⟨u, hu, hrun⟩ := run_two_accesses (rest := rest) ha hd hd
    have hagain : exec i u = .next u := exec_idempotent hu (by rw [hdir, hoff]; exact hne)
    exact (hrun.trans hagain).trans ((run_one_access ha hd).trans hu).symm
  · rintro ⟨rfl, rfl⟩
    have hfirst := step_readResult
      (s := s.facing (accessEvent .read 0x1020 w x :: accessEvent .read 0x1020 w x :: rest)) rfl ha
    have hsecond := step_readResult (s := (s.facing (accessEvent .read 0x1020 w x :: rest)).drainMailbox w) rfl ha
    exact ⟨_, run_succ_eq_next_iff.mpr ⟨_, hfirst, (run_one _).trans hsecond⟩, congrArg some (readValue_zero w), rfl⟩

end Sys2Proof.Machine
end

section
/-! PROOF. Decoder and encoder are inverse to each other (R61, R64). -/

namespace Sys2Proof

/-- The instruction of a direction and a decoded offset: its read row or its write row (R64). -/
def rowInstr (dir : Dir) (r : Option RegName) (w : Width) (off : BitVec 30) (v : Word) : Instr :=
  match dir with
  | .read => readInstr r w off
  | .write => writeInstr r w off v

/-- What an admitted descriptor decodes to (R64), by its fields. -/
theorem decode_eq_rowInstr {d : Desc} (v : Word) (h : admitted (descOff d).toNat (descWidth d).bytes = true) :
    decode d v = .ok (rowInstr (descDir d) (decodeOffset (descOff d).toNat) (descWidth d) (descOff d) v) :=
  decode_admitted h

/-- A descriptor that is not admitted is BusReject, with its own offset and width (R42, R64). -/
theorem decode_eq_busReject {d : Desc} (v : Word) (h : admitted (descOff d).toNat (descWidth d).bytes = false) :
    decode d v = .error (.busReject (descOff d).toNat (descWidth d).bytes) :=
  if_neg (Bool.eq_false_iff.mp h)

/-- A descriptor decodes exactly where it is admitted, and only to the row of its fields (R64). -/
theorem decode_eq_ok_iff {d : Desc} {v : Word} {i : Instr} :
    decode d v = .ok i ↔ admitted (descOff d).toNat (descWidth d).bytes = true ∧
      rowInstr (descDir d) (decodeOffset (descOff d).toNat) (descWidth d) (descOff d) v = i := by
  cases h : admitted (descOff d).toNat (descWidth d).bytes with
  | true => simp [decode_eq_rowInstr v h]
  | false => simp [decode_eq_busReject v h]

/-- The same of a packed descriptor. -/
theorem decode_packDesc_eq_ok_iff {dir : Dir} {w : Width} {off : BitVec 30} {v : Word} {i : Instr} :
    decode (packDesc dir w off) v = .ok i ↔
      admitted off.toNat w.bytes = true ∧ rowInstr dir (decodeOffset off.toNat) w off v = i := by
  rw [decode_eq_ok_iff, descDir_packDesc, descWidth_packDesc, descOff_packDesc]

@[simp] theorem decodeOffset_register (r : RegName) : decodeOffset r.offset = some r :=
  (decodeOffset_eq_some_iff _ r).mpr rfl

/-- The offset field holds every register's offset (R10, R61). -/
theorem toNat_registerField (r : RegName) : (BitVec.ofNat 30 r.offset).toNat = r.offset := by
  cases r <;> rfl

/-- A register's descriptor decodes to the register's row, at either width (R41, R64). -/
theorem decode_packDesc_register (dir : Dir) (r : RegName) (w : Width) (v : Word) :
    decode (packDesc dir w (BitVec.ofNat 30 r.offset)) v =
      .ok (rowInstr dir (some r) w (BitVec.ofNat 30 r.offset) v) := by
  rw [decode_packDesc_eq_ok_iff, toNat_registerField, decodeOffset_register]
  exact ⟨admitted_register r w, rfl⟩

/-- The descriptor of an admitted offset where no register lives decodes to the UNMAPPED row (R64). -/
theorem decode_packDesc_unmapped (dir : Dir) {w : Width} {off : BitVec 30} (v : Word) (h : unmappedOk w off = true) :
    decode (packDesc dir w off) v = .ok (rowInstr dir none w off v) := by
  obtain ⟨hnone, hadm⟩ : decodeOffset off.toNat = none ∧ admitted off.toNat w.bytes = true := by
    simpa [unmappedOk] using h
  rw [decode_packDesc_eq_ok_iff, hnone]
  exact ⟨hadm, rfl⟩

/-- Settles O1, by the instruction: a register's descriptor decodes at either width, and well-formedness is what the
descriptor of an UNMAPPED row needs to decode. -/
theorem decodeOfEncodeIsTheInstruction : Obligations.DecodeOfEncodeIsTheInstruction := by
  intro i hwf
  cases i with
  | rdKeyLo w => exact decode_packDesc_register .read .keyLo w 0
  | rdKeyHi w => exact decode_packDesc_register .read .keyHi w 0
  | rdPlaintext w => exact decode_packDesc_register .read .plaintext w 0
  | rdTweak w => exact decode_packDesc_register .read .tweak w 0
  | rdResult w => exact decode_packDesc_register .read .result w 0
  | rdUnmapped w off => exact decode_packDesc_unmapped .read 0 hwf
  | wrKeyLo w v => exact decode_packDesc_register .write .keyLo w v
  | wrKeyHi w v => exact decode_packDesc_register .write .keyHi w v
  | wrPlaintext w v => exact decode_packDesc_register .write .plaintext w v
  | wrTweak w v => exact decode_packDesc_register .write .tweak w v
  | wrResult w v => exact decode_packDesc_register .write .result w v
  | wrUnmapped w off v => exact decode_packDesc_unmapped .write v hwf

section RowInstr

variable (dir : Dir) (w : Width) (off : BitVec 30) (v : Word)

@[simp] theorem rowInstr_dir (r : Option RegName) : (rowInstr dir r w off v).dir = dir := by
  cases r with
  | none => cases dir <;> rfl
  | some r => cases dir <;> cases r <;> rfl

@[simp] theorem rowInstr_width (r : Option RegName) : (rowInstr dir r w off v).width = w := by
  cases r with
  | none => cases dir <;> rfl
  | some r => cases dir <;> cases r <;> rfl

@[simp] theorem rowInstr_write_wdata (r : Option RegName) : (rowInstr .write r w off v).wdata = v := by
  cases r with
  | none => rfl
  | some r => cases r <;> rfl

@[simp] theorem rowInstr_register_offset (r : RegName) : (rowInstr dir (some r) w off v).offset = r.offset := by
  cases dir <;> cases r <;> rfl

@[simp] theorem rowInstr_unmapped_offset : (rowInstr dir none w off v).offset = off.toNat := by
  cases dir <;> rfl

@[simp] theorem rowInstr_register_wf (r : RegName) : (rowInstr dir (some r) w off v).wf = true := by
  cases dir <;> cases r <;> rfl

@[simp] theorem rowInstr_unmapped_wf : (rowInstr dir none w off v).wf = unmappedOk w off := by
  cases dir <;> rfl

@[simp] theorem encode_rowInstr_register (r : RegName) :
    encode (rowInstr dir (some r) w off v) = packDesc dir w (BitVec.ofNat 30 r.offset) := by
  cases dir <;> cases r <;> rfl

@[simp] theorem encode_rowInstr_unmapped : encode (rowInstr dir none w off v) = packDesc dir w off := by
  cases dir <;> rfl

/-- The row of an offset field accesses that offset (R64). -/
theorem rowInstr_decodeOffset_offset : (rowInstr dir (decodeOffset off.toNat) w off v).offset = off.toNat := by
  cases hd : decodeOffset off.toNat with
  | none => exact rowInstr_unmapped_offset dir w off v
  | some r => exact (rowInstr_register_offset dir w off v r).trans ((decodeOffset_eq_some_iff _ r).mp hd).symm

/-- The row of an admitted access is well formed (R64, R65). -/
theorem rowInstr_decodeOffset_wf (h : admitted off.toNat w.bytes = true) :
    (rowInstr dir (decodeOffset off.toNat) w off v).wf = true := by
  cases hd : decodeOffset off.toNat with
  | none => simp [unmappedOk, hd, h]
  | some r => exact rowInstr_register_wf dir w off v r

/-- The row of an offset field is encoded with that field (R61). -/
theorem encode_rowInstr_decodeOffset :
    encode (rowInstr dir (decodeOffset off.toNat) w off v) = packDesc dir w off := by
  cases hd : decodeOffset off.toNat with
  | none => exact encode_rowInstr_unmapped dir w off v
  | some r =>
    have hoff : off = BitVec.ofNat 30 r.offset := offField_eq_register ((decodeOffset_eq_some_iff _ r).mp hd)
    rw [encode_rowInstr_register, ← hoff]

end RowInstr

/-- Settles O2: what decodes is the row of the descriptor's own fields, which is encoded with those fields. -/
theorem encodeOfDecodeIsTheDescriptor : Obligations.EncodeOfDecodeIsTheDescriptor := by
  intro d v i h
  obtain ⟨hadm, rfl⟩ := decode_eq_ok_iff.mp h
  refine ⟨rowInstr_decodeOffset_wf _ _ _ _ hadm, ?_, ?_⟩
  · rw [encode_rowInstr_decodeOffset, packDesc_fields]
  · intro hdir
    rw [rowInstr_dir] at hdir
    rw [hdir, rowInstr_write_wdata]

end Sys2Proof
end

section
/-! PROOF. The opcode map (R65) and the full decode (R64). -/

namespace Sys2Proof

/-- The row of the opcode map for a register, which leaves `SZ` open (R65). -/
def mappedRow (dir : Dir) (r : RegName) : OpcodeRow where
  mnemonic := (rowInstr dir (some r) .w4 0#30 0).mnemonic
  pattern := packDesc dir .w4 (BitVec.ofNat 30 r.offset)
  mask := 0xBFFFFFFF#32

/-- The UNMAPPED row of a direction, which leaves all but `WE` open (R65). -/
def unmappedRow (dir : Dir) : OpcodeRow where
  mnemonic := (rowInstr dir none .w4 0#30 0).mnemonic
  pattern := packDesc dir .w4 0#30
  mask := 0x80000000#32

/-- The row for a decoded offset. -/
def opcodeRow (dir : Dir) : Option RegName → OpcodeRow
  | some r => mappedRow dir r
  | none => unmappedRow dir

/-- The opcode map, row by row: each direction has the five registers' rows and its UNMAPPED row (R65). -/
theorem opcodeMap_eq : opcodeMap = [Dir.read, Dir.write].flatMap fun dir =>
    [some .keyLo, some .keyHi, some .plaintext, some .tweak, some .result, none].map (opcodeRow dir) := by
  decide

theorem mem_opcodeMap_iff {row : OpcodeRow} : row ∈ opcodeMap ↔ ∃ dir r, row = opcodeRow dir r := by
  rw [opcodeMap_eq]
  constructor
  · intro h
    obtain ⟨dir, -, hdir⟩ := List.mem_flatMap.mp h
    obtain ⟨r, -, rfl⟩ := List.mem_map.mp hdir
    exact ⟨dir, r, rfl⟩
  · rintro ⟨dir, r, rfl⟩
    have hdir : dir ∈ [Dir.read, Dir.write] := by cases dir <;> decide
    have hr : r ∈ [some RegName.keyLo, some .keyHi, some .plaintext, some .tweak, some .result, none] := by
      rcases r with _ | _ | _ <;> decide
    exact List.mem_flatMap.mpr ⟨dir, hdir, List.mem_map_of_mem hr⟩

/-- No two rows of the opcode map have the same mnemonic. -/
theorem opcodeMap_mnemonic_injective {q r : OpcodeRow} (hq : q ∈ opcodeMap) (hr : r ∈ opcodeMap)
    (h : q.mnemonic = r.mnemonic) : q = r :=
  List.inj_on_of_nodup_map (f := OpcodeRow.mnemonic) (by decide) hq hr h

/-- The mnemonic of an instruction is that of its row. -/
theorem rowInstr_mnemonic (dir : Dir) (r : Option RegName) (w : Width) (off : BitVec 30) (v : Word) :
    (rowInstr dir r w off v).mnemonic = (opcodeRow dir r).mnemonic := by
  cases r with
  | none => cases dir <;> rfl
  | some r => cases dir <;> cases r <;> rfl

/-- A descriptor matches a register's row exactly if its direction is the row's and its offset the register's (R65). -/
theorem matchesDesc_mappedRow_iff {d : Desc} {dir : Dir} {r : RegName} :
    (mappedRow dir r).matchesDesc d = true ↔ descDir d = dir ∧ decodeOffset (descOff d).toNat = some r := by
  have hoff : descOff d = BitVec.ofNat 30 r.offset ↔ (descOff d).toNat = r.offset :=
    ⟨fun h => h ▸ toNat_registerField r, offField_eq_register⟩
  rw [decodeOffset_eq_some_iff, ← hoff, ← matches_mapped_row_iff]
  exact beq_iff_eq

/-- A descriptor matches the UNMAPPED row of its direction, and no other (R65). -/
theorem matchesDesc_unmappedRow_iff {d : Desc} {dir : Dir} :
    (unmappedRow dir).matchesDesc d = true ↔ descDir d = dir := by
  rw [← matches_unmapped_row_iff]
  exact beq_iff_eq

/-- No mapped row matches exactly where the offset is no register's (R65). -/
theorem no_mapped_row_matches_iff {d : Desc} :
    (∀ q ∈ opcodeMap, q.mask = 0xBFFFFFFF#32 → q.matchesDesc d = false) ↔ decodeOffset (descOff d).toNat = none := by
  constructor
  · intro h
    cases hd : decodeOffset (descOff d).toNat with
    | none => rfl
    | some r =>
      have hno := h (mappedRow (descDir d) r) (mem_opcodeMap_iff.mpr ⟨descDir d, some r, rfl⟩) rfl
      rw [matchesDesc_mappedRow_iff.mpr ⟨rfl, hd⟩] at hno
      cases hno
  · intro hnone q hq hmask
    obtain ⟨dir, _ | r, rfl⟩ := mem_opcodeMap_iff.mp hq
    · exact absurd hmask (by simp [opcodeRow, unmappedRow])
    · refine Bool.eq_false_iff.mpr fun hmatch => ?_
      rw [(matchesDesc_mappedRow_iff.mp hmatch).2] at hnone
      cases hnone

/-- Under the priority of R65, by which an UNMAPPED row counts only where no mapped row matches, a row applies to exactly
the descriptors of its own direction and decoded offset. -/
theorem opcodeRow_applies_iff {d : Desc} {dir : Dir} {r : Option RegName} :
    ((opcodeRow dir r).matchesDesc d = true ∧ ((opcodeRow dir r).mask = 0x80000000#32 →
        ∀ q ∈ opcodeMap, q.mask = 0xBFFFFFFF#32 → q.matchesDesc d = false)) ↔
      descDir d = dir ∧ decodeOffset (descOff d).toNat = r := by
  rw [no_mapped_row_matches_iff]
  cases r with
  | none => exact and_congr matchesDesc_unmappedRow_iff (imp_iff_right rfl)
  | some r =>
    have hmask : (mappedRow dir r).mask ≠ 0x80000000#32 := by simp [mappedRow]
    exact (and_iff_left fun h => absurd h hmask).trans matchesDesc_mappedRow_iff

/-- Settles O3: the one row that applies is that of the descriptor's direction and decoded offset, and no other row has
its mnemonic. -/
theorem decoderFollowsTheOpcodeMap : Obligations.DecoderFollowsTheOpcodeMap := by
  intro d v hadm
  refine ⟨_, decode_eq_rowInstr v hadm, fun row hrow => ?_⟩
  obtain ⟨dir, r, rfl⟩ := mem_opcodeMap_iff.mp hrow
  rw [opcodeRow_applies_iff, rowInstr_mnemonic]
  constructor
  · intro hname
    have heq := opcodeMap_mnemonic_injective hrow (mem_opcodeMap_iff.mpr ⟨_, _, rfl⟩) hname
    have happlies := (opcodeRow_applies_iff (d := d)).mpr ⟨rfl, rfl⟩
    rw [← heq] at happlies
    exact opcodeRow_applies_iff.mp happlies
  · rintro ⟨rfl, rfl⟩
    rfl

/-- The UNMAPPED mnemonics are those of the rows without a register. -/
theorem rowInstr_mnemonic_unmapped_iff (dir : Dir) (r : Option RegName) (w : Width) (off : BitVec 30) (v : Word) :
    ((rowInstr dir r w off v).mnemonic = "RD.UNMAPPED" ∨ (rowInstr dir r w off v).mnemonic = "WR.UNMAPPED") ↔
      r = none := by
  rw [rowInstr_mnemonic]
  cases r with
  | none => cases dir <;> decide
  | some r => cases dir <;> cases r <;> decide

/-- An offset is unmapped where it is none of the five of the register map (R10, R63). -/
theorem decodeOffset_eq_none_iff_not_listed {o : Nat} :
    decodeOffset o = none ↔ ¬ (o = 0x0 ∨ o = 0x8 ∨ o = 0x1010 ∨ o = 0x1018 ∨ o = 0x1020) := by
  rw [decodeOffset_eq_none_iff]
  constructor
  · rintro h (ho | ho | ho | ho | ho)
    · exact h .keyLo ho
    · exact h .keyHi ho
    · exact h .plaintext ho
    · exact h .tweak ho
    · exact h .result ho
  · rintro h r rfl
    cases r <;> exact absurd h (by decide)

/-- Settles O4: the row of the descriptor's fields has those fields, and is an UNMAPPED row where the offset decodes to no
register. -/
theorem fullDecodeOfADescriptor : Obligations.FullDecodeOfADescriptor := by
  intro d v
  refine ⟨decode_eq_busReject v, fun hadm => ⟨_, decode_eq_rowInstr v hadm, ?_, ?_, ?_, ?_⟩⟩
  · exact rowInstr_dir _ _ _ _ _
  · exact rowInstr_width _ _ _ _ _
  · exact rowInstr_decodeOffset_offset _ _ _ _
  · rw [rowInstr_mnemonic_unmapped_iff, decodeOffset_eq_none_iff_not_listed]

end Sys2Proof
end

section
/-! PROOF. The packing of a transaction (R61), the spec's example descriptors, and its assembler lines (R68). -/

namespace Sys2Proof

/-- `WE << 31 | SZ << 30 | OFF`, as a sum (R61). -/
theorem toNat_packDesc (dir : Dir) (w : Width) (off : BitVec 30) :
    (packDesc dir w off).toNat =
      (if dir = .write then 2 ^ 31 else 0) + (if w.bytes = 8 then 2 ^ 30 else 0) + off.toNat := by
  have happend : (packDesc dir w off).toNat = (dir.bit ++ w.bit).toNat <<< 30 + off.toNat := by
    rw [packDesc, BitVec.toNat_append, Nat.shiftLeft_add_eq_or_of_lt off.isLt]
  rw [happend]
  cases dir <;> cases w <;> rfl

/-- Settles O5: the descriptor is the packing of the transaction's own fields, and the fields of a packing are what was
packed. -/
theorem transactionDescriptorPacking : Obligations.TransactionDescriptorPacking := by
  intro t
  refine ⟨fun hwidth hoff => ?_, fun hwidth => ?_, fun v => rfl, windowSize_le⟩
  · obtain ⟨w, hw⟩ : ∃ w : Width, t.width = w.bytes := by
      obtain h4 | h8 := hwidth
      · exact ⟨.w4, h4⟩
      · exact ⟨.w8, h8⟩
    refine ⟨_, desc?_of_fits hw hoff, ?_, descDir_packDesc _ _ _, ?_, ?_⟩
    · rw [toNat_packDesc, toNat_offField hoff, hw]
    · rw [descWidth_packDesc, hw]
    · rw [descOff_packDesc, toNat_offField hoff]
  · refine desc?_of_not_fits (.inl ?_)
    cases hw : widthOfBytes t.width with
    | none => rfl
    | some w =>
      have hbytes := (widthOfBytes_eq_some_iff _ _).mp hw
      cases w with
      | w4 => exact absurd (.inl hbytes) hwidth
      | w8 => exact absurd (.inr hbytes) hwidth

/-- Settles O6: the decoder, evaluated at each of the seven words. -/
theorem exampleDescriptorsDecode : Obligations.ExampleDescriptorsDecode :=
  fun _ => ⟨rfl, rfl, rfl, rfl, rfl, rfl, rfl⟩

/-- A transaction at a register decodes to the register's row (R64). -/
theorem decode_transaction_register (dir : Dir) (r : RegName) (w : Width) (v : Word) :
    (Transaction.mk dir r.offset w.bytes v).decode =
      .ok (rowInstr dir (some r) w (BitVec.ofNat 30 r.offset) v) := by
  have hlt : r.offset < 2 ^ 30 := by cases r <;> decide
  rw [decode_via_desc, desc?_of_fits (w := w) rfl hlt]
  exact decode_packDesc_register dir r w v

/-- Settles O7: the transaction of a line on a register decodes to the register's row, and a register's name stands for
its offset. -/
theorem assembledLinesDecodeToTheirTransactions : Obligations.AssembledLinesDecodeToTheirTransactions := by
  intro w r v
  have hrd := decode_transaction_register .read r w 0
  have hwr := decode_transaction_register .write r w v
  exact ⟨⟨_, hrd, by simp⟩, ⟨_, hwr, by simp⟩, rfl, rfl⟩

end Sys2Proof
end

section
/-! PROOF. Unmapped offsets (R66). -/

namespace Sys2Proof

/-- The registers are whole 8-byte words of the window (R10). -/
theorem RegName.offset_mod_eight (r : RegName) : r.offset % 8 = 0 := by
  cases r <;> rfl

/-- The upper half of a register is at no register's offset (R66). -/
theorem upperHalf_ne_register (q r : RegName) : q.offset + 4 ≠ r.offset := by
  have hq := q.offset_mod_eight
  have hr := r.offset_mod_eight
  omega

namespace Machine

/-- Settles O16: such an offset decodes to the UNMAPPED row of the direction. -/
theorem unmappedOffsetsAreNotIllegal : Obligations.UnmappedOffsetsAreNotIllegal := by
  intro s dir o w x rest ha hp hadm hno
  have hstep := step_accessEvent hp ha hadm
  rw [(decodeOffset_eq_none_iff o).mpr hno] at hstep
  have hoff : (BitVec.ofNat 30 o).toNat = o :=
    toNat_offField (offset_lt_of_admitted (t := ⟨dir, o, w.bytes, x⟩) hadm)
  refine ⟨?_, ?_, upperHalf_ne_register⟩
  · rintro rfl
    refine ⟨readValue w (Config.diag (BitVec.ofNat 30 o).toNat w), hstep, ?_⟩
    rw [toNat_readValue, hoff]
  · rintro rfl
    exact hstep

end Machine

end Sys2Proof
end

section
/-! PROOF. The engines' round trip (R83, R89), and the pseudo-operations `sign` and `auth` on the device (R69). -/

namespace Sys2Proof.Machine

section Engines

variable (E : Cipher) (p t kl kh : Word)

/-- SIGN replaces bits 62..48 by the cipher's and keeps the rest (R83). -/
theorem getLsbD_signWith (i : Nat) : (signWith E p t kl kh).getLsbD i =
    if 48 ≤ i ∧ i ≤ 62 then (E (cleaned p) t kl kh rounds).getLsbD i else p.getLsbD i := by
  simp only [signWith, BitVec.getLsbD_or, BitVec.getLsbD_and, getLsbD_cleaned, getLsbD_sigMask]
  by_cases h : 48 ≤ i ∧ i ≤ 62
  · simp [h]
  · simp [h]

/-- Signing is not seen through the cleaning of a pointer (R84). -/
theorem cleaned_signWith : cleaned (signWith E p t kl kh) = cleaned p := by
  apply BitVec.eq_of_getLsbD_eq
  intro i _
  rw [getLsbD_cleaned, getLsbD_cleaned, getLsbD_signWith]
  by_cases h : 48 ≤ i ∧ i ≤ 62
  · simp [h]
  · simp [h]

/-- A signed pointer carries the cipher's bits in its signature field (R83). -/
theorem signature_signWith : signature (signWith E p t kl kh) = E (cleaned p) t kl kh rounds &&& sigMask := by
  apply BitVec.eq_of_getLsbD_eq
  intro i _
  rw [getLsbD_signature, getLsbD_signWith, BitVec.getLsbD_and, getLsbD_sigMask]
  by_cases h : 48 ≤ i ∧ i ≤ 62
  · simp [h]
  · simp [h]

/-- R89, for every cipher: what was signed authenticates under the same tweak and keys, to its canonical form. -/
theorem authWith_signWith : authWith E (signWith E p t kl kh) t kl kh = canonical (cleaned p) := by
  simp [authWith, signatureMatches, cleaned_signWith, signature_signWith]

end Engines

/-- Cleaning keeps bit 63, which selects the canonical form (R82, R86). -/
theorem isKernelForm_cleaned (p : Word) : isKernelForm (cleaned p) = p.getLsbD 63 :=
  (getLsbD_cleaned p 63).trans (Bool.and_true _)

/-- The canonical form keeps bits 47..0 and repeats bit 63 above them (R86). -/
theorem getLsbD_canonical_cleaned (p : Word) {i : Nat} (hi : i < 64) :
    (canonical (cleaned p)).getLsbD i = if i < 48 then p.getLsbD i else p.getLsbD 63 := by
  rw [canonical, isKernelForm_cleaned]
  by_cases h48 : i < 48
  · have hlow : ¬ 48 ≤ i := by omega
    cases p.getLsbD 63 <;> simp [getLsbD_cleaned, getLsbD_canonMask, h48, hlow]
  · have hhigh : 48 ≤ i ∧ i ≤ 63 := by omega
    rw [if_neg h48]
    cases h63 : p.getLsbD 63 with
    | true => simp [getLsbD_canonMask, hhigh]
    | false =>
      obtain hle | rfl : i ≤ 62 ∨ i = 63 := by omega
      · simp [getLsbD_cleaned, hhigh, hle]
      · exact (isKernelForm_cleaned p).trans h63

/-- The two transactions of `sign p` (R69). -/
theorem eventsOf_sign_append (p : Word) (rest : List BusEvent) : eventsOf (PseudoOp.sign p).expand ++ rest =
    accessEvent .write 0x1010 .w8 p :: accessEvent .read 0x1020 .w8 0 :: rest := rfl

/-- The two transactions of `auth sp` (R69). -/
theorem eventsOf_auth_append (sp : Word) (rest : List BusEvent) : eventsOf (PseudoOp.auth sp).expand ++ rest =
    accessEvent .write 0x1020 .w8 sp :: accessEvent .read 0x1020 .w8 0 :: rest := rfl

/-- A step that leaves a read at RESULT next, and then that read (R105). -/
theorem run_two_of_readResult_next {s t : State} {w : Width} {x : Word} {rest : List BusEvent} (h : step s = .next t)
    (hp : t.pending = accessEvent .read 0x1020 w x :: rest) (ha : t.attached = true) :
    run 2 s = .next ((t.facing rest).drainMailbox w) :=
  run_succ_eq_next_iff.mpr ⟨t, h, (run_one t).trans (step_readResult hp ha)⟩

/-- `sign p` on the device (R69): both transactions complete, and the second reads SIGN of `p` out of the mailbox. -/
theorem run_sign_expand {s : State} (p : Word) (rest : List BusEvent) (ha : s.attached = true) :
    run 2 (s.facing (eventsOf (PseudoOp.sign p).expand ++ rest)) =
      .next { s with
        plaintext := p
        result := 0
        rdata := some (sign p s.tweak s.keyLo s.keyHi)
        pending := rest } := by
  rw [eventsOf_sign_append]
  have htrigger := step_writePlaintext
    (s := s.facing (accessEvent .write 0x1010 .w8 p :: accessEvent .read 0x1020 .w8 0 :: rest)) rfl ha
  rw [run_two_of_readResult_next htrigger rfl ha, State.signTrigger_eq, State.drainMailbox_eq]
  rfl

/-- `auth sp` on the device (R69): both transactions complete, and the second reads AUTH of `sp` out of the mailbox. -/
theorem run_auth_expand {s : State} (sp : Word) (rest : List BusEvent) (ha : s.attached = true) :
    run 2 (s.facing (eventsOf (PseudoOp.auth sp).expand ++ rest)) =
      .next { s with
        result := 0
        rdata := some (auth sp s.tweak s.keyLo s.keyHi)
        pending := rest } := by
  rw [eventsOf_auth_append]
  have htrigger := step_writeResult
    (s := s.facing (accessEvent .write 0x1020 .w8 sp :: accessEvent .read 0x1020 .w8 0 :: rest)) rfl ha
  rw [run_two_of_readResult_next htrigger rfl ha, State.authTrigger_eq, State.drainMailbox_eq]
  rfl

/-- Settles O43: `sign` leaves tweak and keys, so that `auth` of what it read is the engines' round trip. -/
theorem signThenAuthThroughTheMailbox : Obligations.SignThenAuthThroughTheMailbox := by
  intro s p rest ha
  refine ⟨_, _, run_sign_expand p rest ha, rfl, rfl, ?_, fun more => ?_⟩
  · intro i hi
    have hkept : ¬ (48 ≤ i ∧ i ≤ 62) := by omega
    exact (getLsbD_signWith _ _ _ _ _ i).trans (if_neg hkept)
  · refine ⟨_, _, run_auth_expand _ more ha, rfl, rfl, fun i hi => ?_⟩
    have hround : auth (sign p s.tweak s.keyLo s.keyHi) s.tweak s.keyLo s.keyHi = canonical (cleaned p) :=
      authWith_signWith _ _ _ _ _
    exact (congrArg (fun c => c.getLsbD i) hround).trans (getLsbD_canonical_cleaned p hi)

end Sys2Proof.Machine
end

section
/-! PROOF. The split of a pointer at its signature field (R82), bit by bit and under XOR. The
statements write the masks out: their literals are `sigMask`, its complement and `canonMask` by evaluation. -/

namespace Sys2Proof.Machine

/-- The complement of SIG_MASK, written out, cleans a pointer (R7, R82). -/
theorem and_addressMask (p : Word) : p &&& 0x8000FFFFFFFFFFFF#64 = cleaned p := rfl

/-- No bit is lost in the split: each goes to one of its two sides (R82). -/
theorem cleaned_or_signature (p : Word) : cleaned p ||| signature p = p := by
  rw [cleaned, signature, ← BitVec.and_or_distrib_left, BitVec.or_comm, BitVec.or_not_self, BitVec.and_allOnes]

/-- Settles O27: the bits of the two sides are those of the mask and of its complement. -/
theorem cleanedAndSignatureSplitAPointer : Obligations.CleanedAndSignatureSplitAPointer := by
  intro p
  refine ⟨cleaned_or_signature p, fun i _ => ?_⟩
  rw [getLsbD_cleaned, getLsbD_signature]
  by_cases h : 48 ≤ i ∧ i ≤ 62
  · simp [h]
  · simp [h]

/-- Two pointers have the same cleaned form exactly where they agree on bits 63 and 47..0 (R82). -/
theorem cleaned_eq_iff {p q : Word} :
    cleaned p = cleaned q ↔ ∀ i, (i < 48 ∨ i = 63) → p.getLsbD i = q.getLsbD i := by
  constructor
  · intro h i hi
    have hkept : ¬ (48 ≤ i ∧ i ≤ 62) := by omega
    have hbit := congrArg (fun c => c.getLsbD i) h
    simpa [getLsbD_cleaned, hkept] using hbit
  · intro h
    apply BitVec.eq_of_getLsbD_eq
    intro i hi
    rw [getLsbD_cleaned, getLsbD_cleaned]
    by_cases hfield : 48 ≤ i ∧ i ≤ 62
    · simp [hfield]
    · rw [h i (by omega)]

/-- Two words have the same signature field exactly where their 15 bits from 48 on are the same (R82). -/
theorem signature_eq_iff {a b : Word} :
    signature a = signature b ↔ a.extractLsb' 48 15 = b.extractLsb' 48 15 := by
  constructor
  · intro h
    apply BitVec.eq_of_getLsbD_eq
    intro i hi
    have hfield : 48 ≤ 48 + i ∧ 48 + i ≤ 62 := by omega
    have hbit := congrArg (fun c => c.getLsbD (48 + i)) h
    simpa [getLsbD_signature, hfield, hi] using hbit
  · intro h
    apply BitVec.eq_of_getLsbD_eq
    intro i _
    rw [getLsbD_signature, getLsbD_signature]
    by_cases hfield : 48 ≤ i ∧ i ≤ 62
    · have hpos : 48 + (i - 48) = i := by omega
      have hbit := congrArg (fun c => c.getLsbD (i - 48)) h
      have hlt : i - 48 < 15 := by omega
      simp only [BitVec.getLsbD_extractLsb', hpos, hlt, decide_true, Bool.true_and] at hbit
      rw [hbit]
    · simp [hfield]

/-- The null address has no bit set, in the spelling of the statements. -/
theorem getLsbD_nullWord (i : Nat) : (0 : Word).getLsbD i = false := BitVec.getLsbD_zero

@[simp] theorem cleaned_zero : cleaned 0 = 0 := rfl

@[simp] theorem cleaned_cleaned (p : Word) : cleaned (cleaned p) = cleaned p := by
  rw [cleaned, cleaned, BitVec.and_assoc, BitVec.and_self]

theorem cleaned_xor (p m : Word) : cleaned (p ^^^ m) = cleaned p ^^^ cleaned m := by
  apply BitVec.eq_of_getLsbD_eq
  intro i _
  simp only [getLsbD_cleaned, BitVec.getLsbD_xor, Bool.and_xor_distrib_right]

theorem signature_xor (p m : Word) : signature (p ^^^ m) = signature p ^^^ signature m := by
  apply BitVec.eq_of_getLsbD_eq
  intro i _
  simp only [getLsbD_signature, BitVec.getLsbD_xor, Bool.and_xor_distrib_right]

/-- A mask that touches no bit outside the signature field is its own signature field. -/
theorem signature_eq_self_of_cleaned_eq_zero {m : Word} (h : cleaned m = 0) : signature m = m := by
  simpa [h] using cleaned_or_signature m

end Sys2Proof.Machine
end

section
/-! PROOF. The Sign Engine (R83, R84). -/

namespace Sys2Proof.Machine

/-- SIGN is the cleaned pointer with the signature field of the cipher's output (R83). -/
theorem signWith_eq (E : Cipher) (p t kl kh : Word) :
    signWith E p t kl kh = cleaned p ||| signature (E (cleaned p) t kl kh rounds) := rfl

/-- SIGN sees a pointer through its cleaned form only (R84). -/
theorem signWith_eq_of_cleaned_eq (E : Cipher) {p q : Word} (t kl kh : Word) (h : cleaned p = cleaned q) :
    signWith E p t kl kh = signWith E q t kl kh := by
  rw [signWith_eq, signWith_eq, h]

/-- Settles O28: the bits of SIGN, `getLsbD_signWith`, with the mask and the rounds written out. -/
theorem signReplacesTheSignatureBits : Obligations.SignReplacesTheSignatureBits :=
  ⟨getLsbD_signWith, fun _ _ _ _ => rfl⟩

/-- Settles O29: (a) is that signing is not seen through cleaning; in (b), (c) and (d) the two pointers have the same
cleaned form. -/
theorem lawsOfSign : Obligations.LawsOfSign := by
  intro E p q t kl kh
  simp only [and_addressMask]
  refine ⟨cleaned_signWith E p t kl kh, ?_, ?_, fun hagree => ?_⟩
  · exact signWith_eq_of_cleaned_eq E t kl kh (cleaned_cleaned p).symm
  · exact signWith_eq_of_cleaned_eq E t kl kh (cleaned_signWith E p t kl kh)
  · exact signWith_eq_of_cleaned_eq E t kl kh (cleaned_eq_iff.mpr hagree)

end Sys2Proof.Machine
end

section
/-! PROOF. The Auth Engine: its comparison and its canonical form (R85 to R88). -/

namespace Sys2Proof.Machine

/-- A canonical form without bit 63 is the cleaned pointer (R86). -/
theorem canonical_cleaned_of_user {p : Word} (h : p.getLsbD 63 = false) : canonical (cleaned p) = cleaned p := by
  rw [canonical, isKernelForm_cleaned, h]
  exact if_neg Bool.false_ne_true

/-- A canonical form with bit 63 has bits 63..48 set (R86). -/
theorem canonical_cleaned_of_kernel {p : Word} (h : p.getLsbD 63 = true) :
    canonical (cleaned p) = cleaned p ||| canonMask := by
  rw [canonical, isKernelForm_cleaned, h]
  exact if_pos rfl

/-- The canonical form is 0 exactly for the null address (R87). -/
theorem canonical_cleaned_eq_zero_iff {p : Word} :
    canonical (cleaned p) = 0 ↔ ∀ i, (i < 48 ∨ i = 63) → p.getLsbD i = false := by
  constructor
  · intro h i hi
    have hbit := getLsbD_canonical_cleaned p (i := i) (by omega)
    rw [h, getLsbD_nullWord] at hbit
    obtain hlow | rfl := hi
    · simpa [hlow] using hbit.symm
    · exact hbit.symm
  · intro h
    have hcleaned : cleaned p = cleaned 0 := cleaned_eq_iff.mpr fun i hi => (h i hi).trans (getLsbD_nullWord i).symm
    rw [canonical_cleaned_of_user (h 63 (.inr rfl)), hcleaned, cleaned_zero]

/-- Bits 63..48 of a canonical form are 16 copies of bit 63 of the pointer (R86). -/
theorem extractLsb'_canonical_cleaned (p : Word) :
    (canonical (cleaned p)).extractLsb' 48 16 = BitVec.fill 16 (p.getLsbD 63) := by
  apply BitVec.eq_of_getLsbD_eq
  intro i hi
  have hhigh : ¬ 48 + i < 48 := by omega
  rw [BitVec.getLsbD_extractLsb', getLsbD_canonical_cleaned p (by omega), if_neg hhigh, BitVec.getLsbD_fill,
    Bool.and_comm]

section Auth

variable {E : Cipher} {p t kl kh : Word}

/-- On a match AUTH gives the canonical form of the cleaned pointer (R85, R86). -/
theorem authWith_of_match (h : signature (E (cleaned p) t kl kh rounds) = signature p) :
    authWith E p t kl kh = canonical (cleaned p) :=
  if_pos (beq_iff_eq.mpr h)

/-- On a mismatch AUTH gives the tamper sentinel (R85, R87). -/
theorem authWith_of_mismatch (h : signature (E (cleaned p) t kl kh rounds) ≠ signature p) :
    authWith E p t kl kh = 0 :=
  if_neg fun hmatch => h (beq_iff_eq.mp hmatch)

end Auth

/-- AUTH gives the tamper sentinel or the canonical form, nothing else (R88). -/
theorem authWith_cases (E : Cipher) (p t kl kh : Word) :
    authWith E p t kl kh = 0 ∨ authWith E p t kl kh = canonical (cleaned p) := by
  by_cases h : signature (E (cleaned p) t kl kh rounds) = signature p
  · exact .inr (authWith_of_match h)
  · exact .inl (authWith_of_mismatch h)

/-- Settles O30: by the comparison, and on a match by bit 63. -/
theorem authComparesAndReconstructs : Obligations.AuthComparesAndReconstructs := by
  refine ⟨fun E p t kl kh => ?_, fun _ _ _ _ => rfl⟩
  split_ifs with hmismatch h63
  · exact authWith_of_mismatch hmismatch
  · have huser : p.getLsbD 63 = false := (isKernelForm_cleaned p).symm.trans h63
    exact (authWith_of_match (not_not.mp hmismatch)).trans (canonical_cleaned_of_user huser)
  · have hkernel : p.getLsbD 63 = true := (isKernelForm_cleaned p).symm.trans (eq_true_of_ne_false h63)
    exact (authWith_of_match (not_not.mp hmismatch)).trans (canonical_cleaned_of_kernel hkernel)

/-- Settles O31: a match gives the canonical form, of which `getLsbD_canonical_cleaned` says each bit. -/
theorem canonicalFormFollowsBit63 : Obligations.CanonicalFormFollowsBit63 := by
  intro E p t kl kh hmatch i hi
  rw [authWith_of_match hmatch]
  exact getLsbD_canonical_cleaned p hi

/-- Settles O32: a match gives the canonical form, which is 0 for the null address only; bit 63 is one of the bits that
are then 0. -/
theorem tamperSentinelAndNull : Obligations.TamperSentinelAndNull := by
  intro E p t kl kh
  refine ⟨fun hmismatch => authWith_of_mismatch hmismatch, fun hmatch => ?_⟩
  rw [authWith_of_match hmatch]
  refine ⟨canonical_cleaned_eq_zero_iff, fun h63 hzero => ?_⟩
  have hclear : p.getLsbD 63 = false := canonical_cleaned_eq_zero_iff.mp hzero 63 (.inr rfl)
  exact Bool.false_ne_true (hclear.symm.trans h63)

/-- Settles O33: 0 has all its bits clear, and a canonical form repeats bit 63. -/
theorem rangeOfAuth : Obligations.RangeOfAuth := by
  intro E p t kl kh
  obtain hzero | hcanon := authWith_cases E p t kl kh
  · rw [hzero]
    exact ⟨.inl rfl, fun i _ _ => (getLsbD_nullWord i).trans (getLsbD_nullWord 63).symm⟩
  · rw [hcanon, extractLsb'_canonical_cleaned]
    refine ⟨?_, fun i hlo hhi => ?_⟩
    · cases p.getLsbD 63 with
      | false => exact .inr (.inl rfl)
      | true => exact .inr (.inr rfl)
    · have hhigh : ¬ i < 48 := by omega
      rw [getLsbD_canonical_cleaned p (by omega), if_neg hhigh, getLsbD_canonical_cleaned p (by omega)]
      rfl

end Sys2Proof.Machine
end

section
/-! PROOF. The two engines together: the round trip (R89), tamper detection (R90), also on the device (R69), and what of
the cipher is observable (R91). -/

namespace Sys2Proof.Machine

/-- Settles O34: what was signed authenticates to its canonical form. -/
theorem signThenAuthRoundTrip : Obligations.SignThenAuthRoundTrip := by
  intro E p t kl kh
  rw [authWith_signWith]
  exact ⟨canonical_cleaned_of_user, canonical_cleaned_of_kernel⟩

/-- R90: a change in the signature field of a signed pointer leaves the cipher's input, and so the bits it asks for, but
not the bits presented. -/
theorem authWith_signWith_xor_eq_zero (E : Cipher) (p t kl kh : Word) {m : Word} (hm : m ≠ 0) (hfield : cleaned m = 0) :
    authWith E (signWith E p t kl kh ^^^ m) t kl kh = 0 := by
  have hinput : cleaned (signWith E p t kl kh ^^^ m) = cleaned p := by
    simp [cleaned_xor, hfield, cleaned_signWith]
  have hpresented : signature (signWith E p t kl kh ^^^ m) = signature (E (cleaned p) t kl kh rounds) ^^^ m := by
    rw [signature_xor, signature_signWith, signature_eq_self_of_cleaned_eq_zero hfield]
    rfl
  apply authWith_of_mismatch
  rw [hinput, hpresented]
  intro heq
  have hself : signature (E (cleaned p) t kl kh rounds) ^^^ 0 = signature (E (cleaned p) t kl kh rounds) ^^^ m :=
    BitVec.xor_zero.trans heq
  exact hm ((BitVec.xor_right_inj _).mp hself).symm

/-- Settles O35: the first clause is `authWith_signWith_xor_eq_zero`; any changed pointer either matches, and then the
cipher gives the field it presents, or is answered by 0. -/
theorem tamperDetection : Obligations.TamperDetection := by
  intro E p t kl kh m hm
  refine ⟨fun hfield => authWith_signWith_xor_eq_zero E p t kl kh hm hfield, ?_⟩
  simp only [and_addressMask, ← signature_eq_iff]
  by_cases hmatch : signature (E (cleaned (signWith E p t kl kh ^^^ m)) t kl kh rounds) =
      signature (signWith E p t kl kh ^^^ m)
  · exact .inr hmatch
  · exact .inl (authWith_of_mismatch hmatch)

/-- Settles O36: both engines take of the cipher's output the signature field only. -/
theorem onlySignatureBitsOfTheCipherAreObservable : Obligations.OnlySignatureBitsOfTheCipherAreObservable := by
  intro E F p t t' kl kl' kh kh' hagree
  have hsame : signature (E (cleaned p) t kl kh rounds) = signature (F (cleaned p) t' kl' kh' rounds) :=
    signature_eq_iff.mpr hagree
  refine ⟨by rw [signWith_eq, signWith_eq, hsame], ?_⟩
  by_cases hmatch : signature (E (cleaned p) t kl kh rounds) = signature p
  · rw [authWith_of_match hmatch, authWith_of_match (hsame ▸ hmatch)]
  · rw [authWith_of_mismatch hmatch, authWith_of_mismatch (hsame ▸ hmatch)]

/-- Settles O44: `sign` leaves tweak and keys, so that `auth` of the changed pointer is the engines' tamper detection. -/
theorem tamperedSignatureReadsZero : Obligations.TamperedSignatureReadsZero := by
  intro s p m rest ha hm hclear
  have hfield : cleaned m = 0 := cleaned_eq_iff.mpr fun i hi => (hclear i hi).trans (getLsbD_nullWord i).symm
  have hzero : auth (sign p s.tweak s.keyLo s.keyHi ^^^ m) s.tweak s.keyLo s.keyHi = 0 :=
    authWith_signWith_xor_eq_zero Config.encrypt p s.tweak s.keyLo s.keyHi hm hfield
  exact ⟨_, _, run_sign_expand p rest ha, rfl, fun more => ⟨_, run_auth_expand _ more ha, congrArg some hzero⟩⟩

end Sys2Proof.Machine
end

section
/-! PROOF. Which descriptors decode to an instruction (R61, R64, R65): the inverse of the decoder, the rows of the
registers and the UNMAPPED rows. -/

namespace Sys2Proof

/-- A descriptor is the packing of its fields, and of no others (R61). -/
theorem packDesc_eq_iff {d : Desc} {dir : Dir} {w : Width} {off : BitVec 30} :
    packDesc dir w off = d ↔ descDir d = dir ∧ descWidth d = w ∧ descOff d = off := by
  constructor
  · rintro rfl
    exact ⟨descDir_packDesc _ _ _, descWidth_packDesc _ _ _, descOff_packDesc _ _ _⟩
  · rintro ⟨rfl, rfl, rfl⟩
    exact packDesc_fields d

@[simp] theorem descDir_encode (i : Instr) : descDir (encode i) = i.dir := by
  cases i <;> exact descDir_packDesc _ _ _

/-- A read takes nothing from the write data beside its descriptor (R60, R64). -/
theorem decode_eq_decode_of_read {d : Desc} (v x : Word) (h : descDir d = .read) : decode d v = decode d x := by
  simp only [decode, h]

/-- A descriptor decodes to exactly the well-formed instruction that is encoded as it and, for a write, carries its write
data (R61, R64). -/
theorem decode_eq_ok_iff_encode {d : Desc} {v : Word} {i : Instr} :
    decode d v = .ok i ↔ i.wf = true ∧ encode i = d ∧ (i.dir = .write → i.wdata = v) := by
  constructor
  · exact encodeOfDecodeIsTheDescriptor d v i
  · rintro ⟨hwf, rfl, hdata⟩
    have hback : decode (encode i) i.wdata = .ok i := decodeOfEncodeIsTheInstruction i hwf
    cases hdir : i.dir with
    | read => exact (decode_eq_decode_of_read _ _ ((descDir_encode i).trans hdir)).trans hback
    | write => exact hdata hdir ▸ hback

/-- A write's row carries the write data it was made with (R64). -/
theorem rowInstr_carries_iff {dir : Dir} {r : Option RegName} {w : Width} {off : BitVec 30} {v x : Word} :
    (dir = .write → (rowInstr dir r w off x).wdata = v) ↔ (dir = .write → v = x) := by
  refine forall_congr' fun hdir => ?_
  rw [hdir, rowInstr_write_wdata, eq_comm]

/-- A register's row is decoded from exactly the descriptors that match it (R65). -/
theorem decode_eq_register_row_iff {d : Desc} {v x : Word} {dir : Dir} {r : RegName} {w : Width} {off : BitVec 30} :
    decode d v = .ok (rowInstr dir (some r) w off x) ↔
      d &&& 0xBFFFFFFF#32 = packDesc dir .w4 (BitVec.ofNat 30 r.offset) ∧ descWidth d = w ∧
        (dir = .write → v = x) := by
  rw [decode_eq_ok_iff_encode, matches_mapped_row_iff, encode_rowInstr_register, packDesc_eq_iff, rowInstr_dir,
    rowInstr_carries_iff, rowInstr_register_wf]
  tauto

/-- Where an UNMAPPED row is well formed (R42, R65). -/
theorem unmappedOk_iff {w : Width} {off : BitVec 30} : unmappedOk w off = true ↔
    (∀ r : RegName, off.toNat ≠ r.offset) ∧ off.toNat % w.bytes = 0 ∧ off.toNat + w.bytes ≤ windowSize := by
  have hwidth : w.bytes = 4 ∨ w.bytes = 8 := by cases w <;> decide
  rw [unmappedOk, Bool.and_eq_true, Option.isNone_iff_eq_none, decodeOffset_eq_none_iff, admitted_iff,
    and_iff_right hwidth]

/-- An UNMAPPED row is decoded from exactly the admitted descriptors of its direction where no register lives (R65). -/
theorem decode_eq_unmapped_row_iff {d : Desc} {v x : Word} {dir : Dir} {w : Width} {off : BitVec 30} :
    decode d v = .ok (rowInstr dir none w off x) ↔
      d &&& 0x80000000#32 = packDesc dir .w4 0#30 ∧ descWidth d = w ∧ descOff d = off ∧ (dir = .write → v = x) ∧
        (∀ r : RegName, off.toNat ≠ r.offset) ∧ off.toNat % w.bytes = 0 ∧ off.toNat + w.bytes ≤ windowSize := by
  rw [decode_eq_ok_iff_encode, matches_unmapped_row_iff, encode_rowInstr_unmapped, packDesc_eq_iff, rowInstr_dir,
    rowInstr_carries_iff, rowInstr_unmapped_wf, unmappedOk_iff]
  tauto

namespace Machine

/-- The row of a read at a register (R65). -/
theorem readRow_register (r : RegName) : ReadRow (packDesc .read .w4 (BitVec.ofNat 30 r.offset)) 0xBFFFFFFF#32
    fun w => rowInstr .read (some r) w 0#30 0 := by
  intro d v w
  rw [decode_eq_register_row_iff]
  simp

/-- The row of a write at a register (R65). -/
theorem writeRow_register (r : RegName) : WriteRow (packDesc .write .w4 (BitVec.ofNat 30 r.offset)) 0xBFFFFFFF#32
    fun w x => rowInstr .write (some r) w 0#30 x := by
  intro d v x w
  rw [decode_eq_register_row_iff]
  simp

end Machine

end Sys2Proof
end

section
/-! PROOF. The six reads (R101 to R106). -/

namespace Sys2Proof.Machine

/-- A read of a register answers with what an access of the width carries of it, and changes nothing (R101 to R104). -/
theorem readTransaction_next (s : State) (r : RegName) (w : Width) :
    ∃ v, (.next (s.readTransaction r w) : Host.Outcome State Fault Refusal) = .next { s with rdata := some v } ∧
      v.toNat = narrowed w (s.readReg r) :=
  ⟨_, congrArg _ (s.readTransaction_eq w r), toNat_readValue w _⟩

/-- Settles O19: each of the four is the side-effect-free read of its register, and has its register's row. -/
theorem registerReadsReturnTheRegister : Obligations.RegisterReadsReturnTheRegister := by
  refine ⟨fun w s => ⟨?_, ?_, ?_, ?_⟩, ?_, ?_, ?_, ?_⟩
  · exact readTransaction_next s .keyLo w
  · exact readTransaction_next s .keyHi w
  · exact readTransaction_next s .plaintext w
  · exact readTransaction_next s .tweak w
  · exact readRow_register .keyLo
  · exact readRow_register .keyHi
  · exact readRow_register .plaintext
  · exact readRow_register .tweak

/-- An empty mailbox answers 0 and stays empty (R105). -/
theorem drainMailbox_of_empty {s : State} (w : Width) (h : s.result = 0) :
    s.drainMailbox w = { s with result := 0, rdata := some 0 } := by
  rw [State.drainMailbox_eq, h, readValue_zero]

/-- Settles O20: the read drains the mailbox, and the second read finds it empty. -/
theorem resultReadIsDestructive : Obligations.ResultReadIsDestructive := by
  refine ⟨fun w w' s => ⟨readValue w s.result, ?_, toNat_readValue w s.result, ?_⟩, readRow_register .result⟩
  · exact congrArg Host.Outcome.next (s.drainMailbox_eq w)
  · exact congrArg Host.Outcome.next (drainMailbox_of_empty w' rfl)

/-- Settles O21: the answer is read out of DIAG alone, and the UNMAPPED row of the reads decodes off the registers. -/
theorem unmappedReadReturnsDiag : Obligations.UnmappedReadReturnsDiag := by
  refine ⟨fun w off => ⟨_, toNat_readValue w _, fun s => rfl⟩, fun d x w off => ?_⟩
  refine (decode_eq_unmapped_row_iff (dir := .read) (x := 0)).trans ?_
  simp only [reduceCtorEq, false_imp_iff, true_and]
  exact Iff.rfl

end Sys2Proof.Machine
end

section
/-! PROOF. The six writes (R107 to R112). -/

namespace Sys2Proof.Machine

/-- The number a write of that width delivers (R44). -/
theorem toNat_writeValue (w : Width) (x : Word) : (writeValue w x).toNat = narrowed w x := by
  rw [writeValue_eq_readValue, toNat_readValue]

/-- Settles O22: each of the three stores the write value in its register, and has its register's row. -/
theorem plainWritesStoreTheRegister : Obligations.PlainWritesStoreTheRegister := by
  refine ⟨fun w x s => ⟨writeValue w x, toNat_writeValue w x, ?_, ?_, ?_⟩, ?_, ?_, ?_⟩
  · exact congrArg Host.Outcome.next (s.storeTransaction_eq w x .keyLo)
  · exact congrArg Host.Outcome.next (s.storeTransaction_eq w x .keyHi)
  · exact congrArg Host.Outcome.next (s.storeTransaction_eq w x .tweak)
  · exact writeRow_register .keyLo
  · exact writeRow_register .keyHi
  · exact writeRow_register .tweak

/-- Settles O23: the Sign trigger, with the bits of SIGN from `getLsbD_signWith`. -/
theorem plaintextWriteStoresAndSigns : Obligations.PlaintextWriteStoresAndSigns := by
  refine ⟨fun w x s => ⟨writeValue w x, sign (writeValue w x) s.tweak s.keyLo s.keyHi, toNat_writeValue w x, ?_, ?_⟩,
    writeRow_register .plaintext⟩
  · exact congrArg Host.Outcome.next (s.signTrigger_eq w x)
  · exact getLsbD_signWith Config.encrypt (writeValue w x) s.tweak s.keyLo s.keyHi

/-- Settles O24: the Auth trigger, which leaves the tamper sentinel on a mismatch and the canonical form on a match. -/
theorem resultWriteAuthenticates : Obligations.ResultWriteAuthenticates := by
  refine ⟨fun w x s => ⟨writeValue w x, auth (writeValue w x) s.tweak s.keyLo s.keyHi, toNat_writeValue w x, ?_, ?_, ?_⟩,
    writeRow_register .result⟩
  · exact congrArg Host.Outcome.next (s.authTrigger_eq w x)
  · intro hmismatch
    exact authWith_of_mismatch fun h => hmismatch (signature_eq_iff.mp h)
  · intro hmatch i hi
    have hauth : auth (writeValue w x) s.tweak s.keyLo s.keyHi = canonical (cleaned (writeValue w x)) :=
      authWith_of_match (signature_eq_iff.mpr hmatch)
    rw [hauth]
    exact getLsbD_canonical_cleaned (writeValue w x) hi

/-- Settles O25: the write is acknowledged and no more, and the UNMAPPED row of the writes decodes off the registers. -/
theorem unmappedWriteIsDiscarded : Obligations.UnmappedWriteIsDiscarded := by
  refine ⟨fun w off x s => rfl, fun d v x w off => ?_⟩
  refine (decode_eq_unmapped_row_iff (dir := .write) (x := x)).trans ?_
  simp only [true_imp_iff]
  exact Iff.rfl

end Sys2Proof.Machine
end

section
/-! PROOF. The frame of all twelve transactions (R100, R113), by their mnemonics. -/

namespace Sys2Proof.Machine

/-- The mnemonics of the rules that name a register as written (R101 to R112). -/
def changers : RegName → List String
  | .keyLo => ["WR.KEY_LO"]
  | .keyHi => ["WR.KEY_HI"]
  | .tweak => ["WR.TWEAK"]
  | .plaintext => ["WR.PLAINTEXT"]
  | .result => ["RD.RESULT", "WR.PLAINTEXT", "WR.RESULT"]

/-- A register that an instruction's rule does not name reads as before (R100), also where the instruction is not well
formed. -/
theorem exec_keeps_unnamed_register {i : Instr} {s t : State} {r : RegName} (h : exec i s = .next t)
    (hk : i.mnemonic ∉ changers r) : t.readReg r = s.readReg r := by
  have other : ∀ q : RegName, i.mnemonic ∈ changers q → r ≠ q := by
    rintro q hq rfl
    exact hk hq
  cases i with
  | rdKeyLo w | rdKeyHi w | rdPlaintext w | rdTweak w =>
    cases h
    exact s.readReg_readTransaction _ r w
  | rdResult w =>
    cases h
    exact s.readReg_drainMailbox_other w (other .result (.head _))
  | rdUnmapped w off =>
    cases h
    exact s.readReg_respond _ r
  | wrKeyLo w x | wrKeyHi w x | wrTweak w x =>
    cases h
    exact s.readReg_storeTransaction_other w x (other _ (.head _))
  | wrPlaintext w x =>
    cases h
    exact s.readReg_signTrigger_other w x (other .plaintext (.head _)) (other .result (.tail _ (.head _)))
  | wrResult w x =>
    cases h
    exact s.readReg_authTrigger_other w x (other .result (.tail _ (.tail _ (.head _))))
  | wrUnmapped w off x =>
    cases h
    exact s.readReg_acknowledge r

/-- A read answers with data, and a write with none (R100). -/
theorem exec_rdata_isSome_iff {i : Instr} {s t : State} (h : exec i s = .next t) :
    i.dir = .read ↔ ∃ v, t.rdata = some v := by
  rw [← Option.isSome_iff_exists]
  cases i with
  | rdKeyLo | rdKeyHi | rdPlaintext | rdTweak | rdResult | rdUnmapped =>
    cases h
    exact iff_of_true rfl rfl
  | wrKeyLo | wrKeyHi | wrPlaintext | wrTweak | wrResult | wrUnmapped =>
    cases h
    exact iff_of_false Dir.noConfusion Bool.false_ne_true

/-- Settles O26: register by register, by the rules that name it. -/
theorem fieldsARuleDoesNotNameAreUnchanged : Obligations.FieldsARuleDoesNotNameAreUnchanged := by
  intro i s t h
  obtain ⟨hpending, hattached⟩ := exec_pending_attached h
  refine ⟨fun hlo => ?_, fun hhi => ?_, fun htw => ?_, fun hpt => ?_, fun hrd hpt hwr => ?_,
    exec_rdata_isSome_iff h, hpending, hattached⟩
  · exact exec_keeps_unnamed_register (r := .keyLo) h (by simpa [changers] using hlo)
  · exact exec_keeps_unnamed_register (r := .keyHi) h (by simpa [changers] using hhi)
  · exact exec_keeps_unnamed_register (r := .tweak) h (by simpa [changers] using htw)
  · exact exec_keeps_unnamed_register (r := .plaintext) h (by simpa [changers] using hpt)
  · exact exec_keeps_unnamed_register (r := .result) h (by simp [changers, hrd, hpt, hwr])

end Sys2Proof.Machine
end

section
/-! PROOF. The step of a descriptor that decodes (R100), and the offset of a bus address (R16, R34, R115). -/

namespace Sys2Proof.Machine

/-- Settles O10: decoding a transaction is decoding its descriptor. -/
theorem stepRunsTheDecodedInstruction : Obligations.StepRunsTheDecodedInstruction := by
  intro s t rest d i ha hp hdesc hd
  have hdecode : t.decode = .ok i := by
    rw [decode_via_desc, hdesc]
    exact hd
  exact step_access_ok hp ha hdecode

/-- A bus address becomes an offset exactly where it lies that far from BASE within the window (R16, R34). -/
theorem offsetOfBusAddress_eq_some_iff {a o : Nat} :
    offsetOfBusAddress a = some o ↔ Config.base + o = a ∧ o < windowSize := by
  rw [offsetOfBusAddress, Option.ite_none_right_eq_some, Option.some.injEq]
  omega

/-- The transaction of a bus access is at the offset of its address, with all else unmodified (R115). -/
theorem transactionOfBusAccess_eq_map (dir : Dir) (a n : Nat) (x : Word) :
    transactionOfBusAccess dir a n x = (offsetOfBusAddress a).map fun o => ⟨dir, o, n, x⟩ := by
  rw [transactionOfBusAccess]
  cases offsetOfBusAddress a <;> rfl

/-- Settles O18: the transaction takes the address's offset, and the other fields as they are. -/
theorem busAddressesBecomeOffsets : Obligations.BusAddressesBecomeOffsets := by
  intro dir a n x t
  simp only [transactionOfBusAccess_eq_map, Option.map_eq_some_iff, offsetOfBusAddress_eq_some_iff]
  constructor
  · rintro ⟨o, ⟨hbase, hlt⟩, rfl⟩
    exact ⟨hbase, hlt, rfl, rfl, rfl⟩
  · rintro ⟨hbase, hlt, rfl, rfl, rfl⟩
    exact ⟨t.offset, ⟨hbase, hlt⟩, rfl⟩

end Sys2Proof.Machine
end

section
/-! PROOF. No transaction fails inside the device: all failure is data (R140), and what stops a step is named
(R143, R161). -/

namespace Sys2Proof.Machine

/-- A run takes one event off the list for each of its steps (R49). -/
theorem run_pending {n : Nat} {s t : State} (h : run n s = .next t) : t.pending = s.pending.drop n := by
  induction n generalizing s with
  | zero =>
    cases h
    rfl
  | succ n ih =>
    obtain ⟨u, hstep, hrun⟩ := run_succ_eq_next_iff.mp h
    rw [ih hrun, step_pending hstep, List.drop_tail]

/-- The induction on the discipline, packaged: each step completes and leaves the bus disciplined, so every run does
(R47, R140). -/
theorem run_of_disciplined (n : Nat) {s : State} (hs : s.disciplined = true) :
    ∃ t, run n s = .next t ∧ t.disciplined = true := by
  induction n generalizing s with
  | zero => exact ⟨s, run_zero s, hs⟩
  | succ n ih =>
    obtain ⟨u, hstep, hu⟩ := disciplinedBusIsInvariant s hs
    obtain ⟨t, hrun, ht⟩ := ih hu
    exact ⟨t, run_succ_eq_next_iff.mpr ⟨u, hstep, hrun⟩, ht⟩

/-- Settles O51: every run on a disciplined bus completes, and one of as many steps as there are events delivers
them all. -/
theorem disciplinedRunsNeverStop : Obligations.DisciplinedRunsNeverStop := by
  intro s hs
  have completes : ∀ n, ∃ t, run n s = .next t := fun n => (run_of_disciplined n hs).imp fun _ => And.left
  obtain ⟨t, hrun⟩ := completes s.pending.length
  exact ⟨completes, t, hrun, (run_pending hrun).trans List.drop_length⟩

/-- The step of an admitted transaction completes: it is an instruction of the transaction's direction, and no
instruction stops (R100, R140). -/
theorem step_admitted {s : State} {t : Transaction} {rest : List BusEvent} (hp : s.pending = .access t :: rest)
    (ha : s.attached = true) (hadm : t.admitted = true) :
    ∃ i u, i.dir = t.dir ∧ exec i (s.facing rest) = .next u ∧ step s = .next u := by
  obtain ⟨i, hd⟩ := exists_decode_of_admitted hadm
  obtain ⟨u, hu⟩ := exec_completes i (s.facing rest)
  exact ⟨i, u, (decode_ok_dir_offset hd).1, hu, (step_access_ok hp ha hd).trans hu⟩

/-- Settles O11: the instruction leaves the device facing the rest, and answers with data exactly where it is a read. -/
theorem admittedTransactionsComplete : Obligations.AdmittedTransactionsComplete := by
  intro s t rest ha hp hadm
  obtain ⟨i, u, hdir, hexec, hstep⟩ := step_admitted hp ha hadm
  obtain ⟨hup, hua⟩ := exec_pending_attached hexec
  have hdata : t.dir = .read ↔ ∃ v, u.rdata = some v := hdir ▸ exec_rdata_isSome_iff hexec
  refine ⟨u, hstep, hup, hua.trans ha, hdata.mp, fun hwrite => ?_⟩
  rw [Option.eq_none_iff_forall_ne_some]
  intro v hv
  have hread : t.dir = .read := hdata.mpr ⟨v, hv⟩
  exact absurd (hwrite.symm.trans hread) (by decide)

/-- Everything that a step can have been refused for: a transaction that finds no instance, or one that is not admitted
(R42, R143, R161). -/
theorem step_refused_cases {s : State} {r : Refusal} (h : step s = .refused r) :
    (∃ t rest, s.pending = .access t :: rest ∧ s.attached = false ∧ r = .noInstance) ∨
    (∃ t rest, s.pending = .access t :: rest ∧ s.attached = true ∧ t.admitted = false ∧
      r = .busReject t.offset t.width) := by
  match hp : s.pending with
  | [] => cases (step_idle hp).symm.trans h
  | .construct :: rest => cases (step_construct hp).symm.trans h
  | .destroy :: rest => cases (step_destroy hp).symm.trans h
  | .access t :: rest =>
    cases ha : s.attached with
    | false =>
      cases (step_detached hp ha).symm.trans h
      exact .inl ⟨t, rest, rfl, rfl, rfl⟩
    | true =>
      cases hadm : t.admitted with
      | false =>
        cases (step_access_error hp ha (decode_of_not_admitted hadm)).symm.trans h
        exact .inr ⟨t, rest, rfl, rfl, hadm, rfl⟩
      | true =>
        obtain ⟨-, u, -, -, hstep⟩ := step_admitted hp ha hadm
        cases hstep.symm.trans h

/-- Settles O12: there is no fault to raise, `step_refused_cases` names the cause of each refusal, and either cause
makes the step stop by its name. -/
theorem stepStopsOnlyByName : Obligations.StepStopsOnlyByName := by
  intro s
  refine ⟨nofun, fun m hm => ?_, fun o n => ⟨fun hreject => ?_, ?_⟩, fun hnone => ?_, ?_⟩
  · obtain ⟨_, _, -, -, hr⟩ | ⟨_, _, -, -, -, hr⟩ := step_refused_cases hm
    · cases hr
    · cases hr
  · obtain ⟨_, _, -, -, hr⟩ | ⟨t, rest, hp, ha, hadm, hr⟩ := step_refused_cases hreject
    · cases hr
    · cases hr
      exact ⟨ha, t, rest, hp, hadm, rfl, rfl⟩
  · rintro ⟨ha, t, rest, hp, hadm, rfl, rfl⟩
    exact step_access_error hp ha (decode_of_not_admitted hadm)
  · obtain ⟨t, rest, hp, ha, -⟩ | ⟨_, _, -, -, -, hr⟩ := step_refused_cases hnone
    · exact ⟨ha, t, rest, hp⟩
    · cases hr
  · rintro ⟨ha, t, rest, hp⟩
    exact step_detached hp ha

end Sys2Proof.Machine
end

section
/-! PROOF. The view of a master that uses only 4-byte accesses (R169): narrow values, what an event does to the view, and
the view at reset. -/

namespace Sys2Proof

/-- A transaction decodes to an instruction of its own width (R64). -/
theorem decode_ok_width {t : Transaction} {i : Instr} (h : t.decode = .ok i) : i.width.bytes = t.width := by
  have hadm := decode_ok_admitted h
  obtain ⟨w, hw⟩ := width_of_admitted hadm
  have hrow : rowInstr t.dir (decodeOffset t.offset) w (BitVec.ofNat 30 t.offset) t.wdata = i :=
    Except.ok.inj ((decode_of_admitted hw hadm).symm.trans h)
  rw [← hrow, rowInstr_width, hw]

namespace Machine

/-- A value has no bit above 31 exactly where it is below `2^32`. -/
theorem upperClear_iff {v : Word} : upperClear v = true ↔ v.toNat < 2 ^ 32 := by
  have hlt := v.isLt
  rw [upperClear, beq_iff_eq, ← BitVec.toNat_inj, BitVec.extractLsb'_toNat, Nat.shiftRight_eq_div_pow]
  simp only [BitVec.toNat_ofNat]
  omega

/-- What a 4-byte access carries has no bit above 31 (R44, R45). -/
theorem upperClear_lowHalf (v : Word) : upperClear (lowHalf v) = true := by
  rw [upperClear_iff, toNat_lowHalf]
  exact Nat.mod_lt _ (by decide)

/-- Cleaning sets no bit (R82). -/
theorem upperClear_cleaned {v : Word} (h : upperClear v = true) : upperClear (cleaned v) = true := by
  rw [upperClear_iff] at h ⊢
  rw [cleaned, BitVec.toNat_and]
  exact Nat.and_le_left.trans_lt h

section Engines

variable {p : Word} (t kl kh : Word)

/-- SIGN of a narrow pointer has of the bits above 31 the signature field only (R84). -/
theorem upperClear_cleaned_sign (h : upperClear p = true) : upperClear (cleaned (sign p t kl kh)) = true := by
  rw [sign, cleaned_signWith]
  exact upperClear_cleaned h

/-- AUTH of a narrow pointer is narrow: the tamper sentinel, or the cleaned pointer, since bit 63 is clear (R86). -/
theorem upperClear_auth (h : upperClear p = true) : upperClear (auth p t kl kh) = true := by
  have huser : p.getLsbD 63 = false := Nat.testBit_lt_two_pow ((upperClear_iff.mp h).trans (by decide))
  obtain hzero | hcanon := authWith_cases Config.encrypt p t kl kh
  · rw [auth, hzero]
    rfl
  · rw [auth, hcanon, canonical_cleaned_of_user huser]
    exact upperClear_cleaned h

end Engines

/-- What a 32-bit master's view allows in a register: no bit above 31, but for the signature field in the mailbox
(R169). -/
def fitsNarrowView (r : RegName) (v : Word) : Bool :=
  match r with
  | .result => upperClear (cleaned v)
  | .keyLo | .keyHi | .plaintext | .tweak => upperClear v

/-- A narrow value may stand in any register. -/
theorem fitsNarrowView_of_upperClear (r : RegName) {v : Word} (h : upperClear v = true) :
    fitsNarrowView r v = true := by
  cases r with
  | result => exact upperClear_cleaned h
  | keyLo | keyHi | plaintext | tweak => exact h

namespace NarrowView

variable {s : State}

theorem facing {es : List BusEvent} (hs : NarrowView s) (h : es.all narrowEvent = true) : NarrowView (s.facing es) :=
  { hs with events := h }

theorem respond {v : Word} (hs : NarrowView s) (h : upperClear v = true) : NarrowView (s.respond v) :=
  { hs with
    rdata := by
      rintro _ ⟨⟩
      exact h }

theorem acknowledge (hs : NarrowView s) : NarrowView s.acknowledge :=
  { hs with rdata := nofun }

theorem destroy (hs : NarrowView s) : NarrowView s.destroy :=
  { hs with rdata := nofun }

theorem writeReg {r : RegName} {v : Word} (hs : NarrowView s) (h : fitsNarrowView r v = true) :
    NarrowView (s.writeReg r v) := by
  cases r with
  | keyLo => exact { hs with keyLo := h }
  | keyHi => exact { hs with keyHi := h }
  | plaintext => exact { hs with plaintext := h }
  | tweak => exact { hs with tweak := h }
  | result => exact { hs with result := h }

/-- The master sees the low half of whatever a 4-byte read finds (R45). -/
theorem readTransaction (hs : NarrowView s) (r : RegName) : NarrowView (s.readTransaction r .w4) :=
  hs.respond (upperClear_lowHalf _)

theorem storeTransaction (hs : NarrowView s) (r : RegName) (x : Word) : NarrowView (s.storeTransaction r .w4 x) :=
  (hs.writeReg (fitsNarrowView_of_upperClear r (upperClear_lowHalf x))).acknowledge

/-- A 4-byte read at RESULT shows the low half of the mailbox only, and empties it (R105). -/
theorem drainMailbox (hs : NarrowView s) : NarrowView (s.drainMailbox .w4) :=
  have hempty : NarrowView (s.writeReg .result 0) := hs.writeReg (fitsNarrowView_of_upperClear .result rfl)
  hempty.respond (upperClear_lowHalf _)

/-- A 4-byte sign trigger signs a narrow pointer (R109). -/
theorem signTrigger (hs : NarrowView s) (x : Word) : NarrowView (s.signTrigger .w4 x) :=
  have hstored : NarrowView (s.writeReg .plaintext (lowHalf x)) := hs.writeReg (upperClear_lowHalf x)
  have hsigned := upperClear_cleaned_sign s.tweak s.keyLo s.keyHi (upperClear_lowHalf x)
  (hstored.writeReg (r := .result) hsigned).acknowledge

/-- A 4-byte auth trigger authenticates a narrow pointer (R111). -/
theorem authTrigger (hs : NarrowView s) (x : Word) : NarrowView (s.authTrigger .w4 x) :=
  have hauth := upperClear_auth s.tweak s.keyLo s.keyHi (upperClear_lowHalf x)
  (hs.writeReg (fitsNarrowView_of_upperClear .result hauth)).acknowledge

/-- The view holds of the reset state (R36). -/
theorem reset : NarrowView State.reset where
  events := rfl
  keyLo := rfl
  keyHi := rfl
  tweak := rfl
  plaintext := rfl
  result := rfl
  rdata := nofun

/-- The next event is narrow, and the view holds of the state that faces the rest. -/
theorem of_pending_cons {e : BusEvent} {rest : List BusEvent} (hs : NarrowView s) (hp : s.pending = e :: rest) :
    narrowEvent e = true ∧ NarrowView (s.facing rest) := by
  obtain ⟨he, hrest⟩ : narrowEvent e = true ∧ rest.all narrowEvent = true := by simpa [hp] using hs.events
  exact ⟨he, hs.facing hrest⟩

/-- Every instruction of width 4 keeps the view, each by the operation it performs. -/
theorem exec {i : Instr} {t : State} (hs : NarrowView s) (hw : i.width = .w4) (h : Machine.exec i s = .next t) :
    NarrowView t := by
  cases i with
  | rdKeyLo w | rdKeyHi w | rdPlaintext w | rdTweak w =>
    obtain rfl : w = .w4 := hw
    cases h
    exact hs.readTransaction _
  | rdResult w =>
    obtain rfl : w = .w4 := hw
    cases h
    exact hs.drainMailbox
  | rdUnmapped w off =>
    obtain rfl : w = .w4 := hw
    cases h
    exact hs.respond (upperClear_lowHalf _)
  | wrKeyLo w x | wrKeyHi w x | wrTweak w x =>
    obtain rfl : w = .w4 := hw
    cases h
    exact hs.storeTransaction _ x
  | wrPlaintext w x =>
    obtain rfl : w = .w4 := hw
    cases h
    exact hs.signTrigger x
  | wrResult w x =>
    obtain rfl : w = .w4 := hw
    cases h
    exact hs.authTrigger x
  | wrUnmapped w off x =>
    cases h
    exact hs.acknowledge

end NarrowView

/-- A narrow transaction decodes to an instruction of width 4 only: the other width has 8 bytes (R41). -/
theorem decode_width_of_narrowEvent {a : Transaction} {i : Instr} (h : narrowEvent (.access a) = true)
    (hd : a.decode = .ok i) : i.width = .w4 := by
  have hne : a.width ≠ 8 := by simpa [narrowEvent] using h
  rw [← decode_ok_width hd] at hne
  cases hw : i.width with
  | w4 => rfl
  | w8 => exact absurd (congrArg Width.bytes hw) hne

/-- Settles O47, event by event: construction gives the view of reset, teardown changes no register, and a transaction
runs an instruction of width 4. -/
theorem narrowMasterViewIsInvariant : Obligations.NarrowMasterViewIsInvariant := by
  intro s t hs h
  obtain ⟨-, rfl⟩ | ⟨rest, hp, rfl⟩ | ⟨rest, hp, rfl⟩ | ⟨a, rest, i, hp, -, hd, he⟩ := step_cases h
  · exact hs
  · obtain ⟨-, hrest⟩ := hs.of_pending_cons hp
    exact NarrowView.reset.facing hrest.events
  · obtain ⟨-, hrest⟩ := hs.of_pending_cons hp
    exact hrest.destroy
  · obtain ⟨hnarrow, hrest⟩ := hs.of_pending_cons hp
    exact hrest.exec (decode_width_of_narrowEvent hnarrow hd) he

/-- Settles O48: the registers of reset are narrow, and the view allows any narrow events to be pending. -/
theorem narrowMasterViewHoldsAtReset : Obligations.NarrowMasterViewHoldsAtReset :=
  ⟨NarrowView.reset, fun _ => NarrowView.reset.facing⟩

end Machine

end Sys2Proof
end

section
/-! PROOF. A key or tweak write after a trigger comes too late for its result (R165). -/

namespace Sys2Proof.Machine

/-- A write at KEY_LO, KEY_HI or TWEAK completes and leaves the mailbox alone (R107, R108, R110). -/
theorem step_keyWrite_keeps_result {s : State} {o : Nat} {w : Width} {x : Word} {rest : List BusEvent}
    (hp : s.pending = accessEvent .write o w x :: rest) (ha : s.attached = true)
    (ho : o = 0x0 ∨ o = 0x8 ∨ o = 0x1018) : ∃ t, step s = .next t ∧ t.result = s.result := by
  obtain rfl | rfl | rfl := ho
  · exact ⟨_, step_accessEvent hp ha (admitted_register .keyLo w), rfl⟩
  · exact ⟨_, step_accessEvent hp ha (admitted_register .keyHi w), rfl⟩
  · exact ⟨_, step_accessEvent hp ha (admitted_register .tweak w), rfl⟩

/-- Settles O42: the trigger's result is its engine's output whatever comes next, and the late write leaves the mailbox
alone. -/
theorem lateKeyWritesDoNotChangeTheResult : Obligations.LateKeyWritesDoNotChangeTheResult := by
  intro s off o w w' x x' rest ha hoff ho
  obtain ⟨a, hstepa, hap, haa, hares, -⟩ := step_trigger
    (s := s.facing (accessEvent .write off w x :: accessEvent .write o w' x' :: rest)) w x rfl ha hoff
  obtain ⟨t, hstept, ht⟩ := step_keyWrite_keeps_result hap haa ho
  obtain ⟨u, hstepu, -, -, hures, -⟩ := step_trigger (s := s.facing (accessEvent .write off w x :: rest)) w x rfl ha hoff
  refine ⟨t, u, run_succ_eq_next_iff.mpr ⟨a, hstepa, (run_one a).trans hstept⟩, (run_one _).trans hstepu,
    ht.trans (hares.trans hures.symm), ?_, ?_⟩
  · rintro rfl
    exact hures
  · rintro rfl
    exact hures

end Sys2Proof.Machine
end

section
/-! PROOF. From construction to destruction: freshly constructed devices agree (R163), and a destroyed one is out of reach
(R161). -/

namespace Sys2Proof.Machine

/-- After a construction event a run is one from reset, whatever state the event found (R36, R160). -/
theorem run_construct (n : Nat) (s : State) (es : List BusEvent) :
    run (n + 1) (s.facing (.construct :: es)) = run n (State.reset.facing es) := by
  rw [run_succ, step_construct rfl]
  rfl

/-- AUTH of what was signed under the same tweak and keys is the canonical address, bit by bit (R86, R89). -/
theorem getLsbD_auth_sign (p t kl kh : Word) {i : Nat} (hi : i < 64) :
    (auth (sign p t kl kh) t kl kh).getLsbD i = if i < 48 then p.getLsbD i else p.getLsbD 63 := by
  rw [auth, sign, authWith_signWith, getLsbD_canonical_cleaned p hi]

/-- Settles O45: both devices run from reset, so that they sign and authenticate under the same tweak and keys. -/
theorem freshInstancesAgree : Obligations.FreshInstancesAgree := by
  intro s z p rest more
  have hsign := (run_construct 2 s _).trans (run_sign_expand (s := .reset) p rest rfl)
  refine ⟨_, _, hsign, rfl, ?_⟩
  have hauth (sp : Word) := (run_construct 2 z _).trans (run_auth_expand (s := .reset) sp more rfl)
  exact ⟨_, _, hauth _, rfl, fun i hi => getLsbD_auth_sign p _ _ _ hi⟩

/-- Settles O15: the teardown detaches the device, so that a transaction is refused, and a construction event attaches
one with the values of reset. -/
theorem destructionEndsTheInstance : Obligations.DestructionEndsTheInstance := by
  intro s rest hp
  refine ⟨(s.facing rest).destroy, step_destroy hp, rfl, rfl, ?_, ?_⟩
  · rintro t more rfl
    exact step_detached rfl rfl
  · rintro more rfl
    exact ⟨_, step_construct rfl, rfl, rfl, State.readReg_construct _⟩

end Sys2Proof.Machine
end
